-- ==== Sys2Proof/Word.lean ====
section
/-! DEFINITION. The word types of the CORE (spec/00_scope.md R8, spec/10_state.md R20 - R29). -/

namespace Sys2Proof

/-- Half a byte: the fields `ir`, `X`, `Y`, `N` (R72). -/
abbrev Nibble := BitVec 4

/-- A general register, a timer counter or a byte of memory (R20, R29, R31). -/
abbrev Byte := BitVec 8

/-- The 12-bit field `NNN`, an address (R72, R74). -/
abbrev Addr := BitVec 12

/-- An instruction word, the program counter, the address register or a stack entry
(R23, R24, R27, R71). -/
abbrev Word := BitVec 16

/-- The number of a general register, 0x0 to 0xF (R20). -/
abbrev Reg := Fin 16

end Sys2Proof
end

