-- ==== Sys2Proof/Syntax.lean ====
section
/-! DEFINITION. The 34 instructions of spec/opcode_table.json, one constructor a row, in the table's order
(spec/30_encoding.md R76). A constructor carries every nibble its word leaves free, also a nibble the
decoder does not check and the machine ignores (R77), so that no bit of a word is lost. -/

namespace Sys2Proof

/-- The CORE instruction set (R76). -/
inductive Instr where
  /-- `0XE0` CLS: clear the framebuffer. The X nibble is unchecked (R77, R140). -/
  | cls (x : Nibble)
  /-- `0XEE` RET: pop the call stack into pc. The X nibble is unchecked (R77, R100). -/
  | ret (x : Nibble)
  /-- `1NNN` JP addr (R101). -/
  | jp (nnn : Addr)
  /-- `2NNN` CALL addr (R102). -/
  | call (nnn : Addr)
  /-- `3XNN` SE Vx, byte (R103). -/
  | seByte (x : Reg) (nn : Byte)
  /-- `4XNN` SNE Vx, byte (R104). -/
  | sneByte (x : Reg) (nn : Byte)
  /-- `5XYN` SE Vx, Vy. The N nibble is unchecked (R77, R105). -/
  | seReg (x y : Reg) (n : Nibble)
  /-- `6XNN` LD Vx, byte (R110). -/
  | ldByte (x : Reg) (nn : Byte)
  /-- `7XNN` ADD Vx, byte (R111). -/
  | addByte (x : Reg) (nn : Byte)
  /-- `8XY0` LD Vx, Vy (R112). -/
  | ldReg (x y : Reg)
  /-- `8XY1` OR Vx, Vy (R113). -/
  | orReg (x y : Reg)
  /-- `8XY2` AND Vx, Vy (R114). -/
  | andReg (x y : Reg)
  /-- `8XY3` XOR Vx, Vy (R115). -/
  | xorReg (x y : Reg)
  /-- `8XY4` ADD Vx, Vy with carry into VF (R116). -/
  | addReg (x y : Reg)
  /-- `8XY5` SUB Vx, Vy (R117). -/
  | subReg (x y : Reg)
  /-- `8XY6` SHL Vx: a shift to the LEFT here. The Y nibble is ignored (R118). -/
  | shl (x y : Reg)
  /-- `8XY7` SUBN Vx, Vy (R119). -/
  | subnReg (x y : Reg)
  /-- `8XYE` SHR Vx: a shift to the RIGHT here. The Y nibble is ignored (R120). -/
  | shr (x y : Reg)
  /-- `9XYN` SNE Vx, Vy. The N nibble is unchecked (R77, R106). -/
  | sneReg (x y : Reg) (n : Nibble)
  /-- `ANNN` LD I, addr (R130). -/
  | ldI (nnn : Addr)
  /-- `BNNN` JP V0, addr (R107). -/
  | jpV0 (nnn : Addr)
  /-- `CXNN` RND Vx, byte (R121). -/
  | rnd (x : Reg) (nn : Byte)
  /-- `DXYN` DRW Vx, Vy, n (R141). -/
  | drw (x y : Reg) (n : Nibble)
  /-- `EX9E` SKP Vx (R150). -/
  | skp (x : Reg)
  /-- `EXA1` SKNP Vx (R151). -/
  | sknp (x : Reg)
  /-- `FX07` LD Vx, DT (R161). -/
  | ldVxDT (x : Reg)
  /-- `FX0A` LD Vx, K: wait for a key (R152). -/
  | ldVxK (x : Reg)
  /-- `FX15` LD DT, Vx (R162). -/
  | ldDTVx (x : Reg)
  /-- `FX18` LD ST, Vx (R163). -/
  | ldSTVx (x : Reg)
  /-- `FX1E` ADD I, Vx (R131). -/
  | addI (x : Reg)
  /-- `FX29` LD F, Vx: glyph address (R132). -/
  | ldF (x : Reg)
  /-- `FX33` LD B, Vx: decimal digits to memory (R133). -/
  | ldB (x : Reg)
  /-- `FX55` LD [I], Vx: store V0 .. Vx (R134). -/
  | storeRegs (x : Reg)
  /-- `FX65` LD Vx, [I]: load V0 .. Vx (R135). -/
  | loadRegs (x : Reg)
  deriving DecidableEq, Repr

end Sys2Proof
end

