-- ==== Sys2Proof/WellFormed.lean ====
section
/-! DEFINITION. Well-formed instructions: the canonical forms, those an assembler emits (spec/30_encoding.md
R76, R77). Every operand range (a register number, NN, NNN, N) is already in the operand's type, so the one
thing left to check is that a nibble the decoder ignores and the canonical pattern shows as 0 is 0.
The MACHINE runs every instruction, well-formed or not: R77 gives a non-canonical word the meaning of its
row, and no statement about the machine assumes well-formedness. -/

namespace Sys2Proof

/-- The instruction's word is the canonical one of its row in R76: `00E0`, `00EE`, `5XY0`, `9XY0`. -/
def Instr.wellFormed : Instr → Bool
  | .cls x        => x == 0#4
  | .ret x        => x == 0#4
  | .seReg _ _ n  => n == 0#4
  | .sneReg _ _ n => n == 0#4
  | .jp _ | .call _ | .seByte _ _ | .sneByte _ _ | .ldByte _ _ | .addByte _ _ | .ldReg _ _
  | .orReg _ _ | .andReg _ _ | .xorReg _ _ | .addReg _ _ | .subReg _ _ | .shl _ _ | .subnReg _ _
  | .shr _ _ | .ldI _ | .jpV0 _ | .rnd _ _ | .drw _ _ _ | .skp _ | .sknp _ | .ldVxDT _ | .ldVxK _
  | .ldDTVx _ | .ldSTVx _ | .addI _ | .ldF _ | .ldB _ | .storeRegs _ | .loadRegs _ => true

end Sys2Proof
end

