-- ==== Sys2Proof/Decode.lean ====
section
/-! DEFINITION. Instruction words: the fields, the two-level decoder, the encoder, and the opcode map as the
spec prints it (spec/30_encoding.md R70 - R79, spec/20_memory.md R52). The machine never sees a raw word:
fields are cut here, once. -/

namespace Sys2Proof

/-! ### Fields -/

/-- The six fields cut from every instruction word (R72). They overlap: `NN = Y ‖ N`, `NNN = X ‖ NN`. -/
structure Fields where
  ir  : Nibble
  x   : Nibble
  y   : Nibble
  n   : Nibble
  nn  : Byte
  nnn : Addr
  deriving DecidableEq, Repr

/-- `ir` is bits 15:12, `X` 11:8, `Y` 7:4, `N` 3:0, `NN` 7:0, `NNN` 11:0 (R72). -/
def fieldsOf (op : Word) : Fields where
  ir  := op.extractLsb' 12 4
  x   := op.extractLsb' 8 4
  y   := op.extractLsb' 4 4
  n   := op.extractLsb' 0 4
  nn  := op.extractLsb' 0 8
  nnn := op.extractLsb' 0 12

/-- The register a nibble names (R20, R74). -/
def regOf (b : Nibble) : Reg := b.toFin

/-- The nibble that names a register. -/
def nibbleOf (r : Reg) : Nibble := BitVec.ofFin r

/-- The instruction word of two bytes in memory: byte0, the one at the lower address, is the more
significant (R52, R70). -/
def wordOfBytes (byte0 byte1 : Byte) : Word := byte0 ++ byte1

/-! ### Decoding -/

/-- `ir = 0x0`: the minor field is NN (R75). -/
def decodeZero (f : Fields) : Option Instr :=
  match f.nn.toNat with
  | 0xE0 => some (.cls f.x)
  | 0xEE => some (.ret f.x)
  | _    => none

/-- `ir = 0x8`: the minor field is N (R75). -/
def decodeEight (f : Fields) : Option Instr :=
  match f.n.toNat with
  | 0x0 => some (.ldReg (regOf f.x) (regOf f.y))
  | 0x1 => some (.orReg (regOf f.x) (regOf f.y))
  | 0x2 => some (.andReg (regOf f.x) (regOf f.y))
  | 0x3 => some (.xorReg (regOf f.x) (regOf f.y))
  | 0x4 => some (.addReg (regOf f.x) (regOf f.y))
  | 0x5 => some (.subReg (regOf f.x) (regOf f.y))
  | 0x6 => some (.shl (regOf f.x) (regOf f.y))
  | 0x7 => some (.subnReg (regOf f.x) (regOf f.y))
  | 0xE => some (.shr (regOf f.x) (regOf f.y))
  | _   => none

/-- `ir = 0xE`: the minor field is NN (R75). -/
def decodeE (f : Fields) : Option Instr :=
  match f.nn.toNat with
  | 0x9E => some (.skp (regOf f.x))
  | 0xA1 => some (.sknp (regOf f.x))
  | _    => none

/-- `ir = 0xF`: the minor field is NN (R75). -/
def decodeF (f : Fields) : Option Instr :=
  match f.nn.toNat with
  | 0x07 => some (.ldVxDT (regOf f.x))
  | 0x0A => some (.ldVxK (regOf f.x))
  | 0x15 => some (.ldDTVx (regOf f.x))
  | 0x18 => some (.ldSTVx (regOf f.x))
  | 0x1E => some (.addI (regOf f.x))
  | 0x29 => some (.ldF (regOf f.x))
  | 0x33 => some (.ldB (regOf f.x))
  | 0x55 => some (.storeRegs (regOf f.x))
  | 0x65 => some (.loadRegs (regOf f.x))
  | _    => none

/-- The instruction of a set of fields, `none` for a reserved word: first on `ir`, then on a minor field
where there is one (R75). -/
def decodeFields (f : Fields) : Option Instr :=
  match f.ir.toNat with
  | 0x0 => decodeZero f
  | 0x1 => some (.jp f.nnn)
  | 0x2 => some (.call f.nnn)
  | 0x3 => some (.seByte (regOf f.x) f.nn)
  | 0x4 => some (.sneByte (regOf f.x) f.nn)
  | 0x5 => some (.seReg (regOf f.x) (regOf f.y) f.n)
  | 0x6 => some (.ldByte (regOf f.x) f.nn)
  | 0x7 => some (.addByte (regOf f.x) f.nn)
  | 0x8 => decodeEight f
  | 0x9 => some (.sneReg (regOf f.x) (regOf f.y) f.n)
  | 0xA => some (.ldI f.nnn)
  | 0xB => some (.jpV0 f.nnn)
  | 0xC => some (.rnd (regOf f.x) f.nn)
  | 0xD => some (.drw (regOf f.x) (regOf f.y) f.n)
  | 0xE => decodeE f
  | _   => decodeF f

/-- The instruction of a word, `none` for one of the reserved words of R78. -/
def decodeWord (op : Word) : Option Instr := decodeFields (fieldsOf op)

/-- Why bytes are no instruction. -/
inductive DecodeError where
  /-- Fewer than two bytes are left: every instruction is 2 bytes (R71). -/
  | truncated
  /-- The word matches no row of R76 (R78, R79). -/
  | reserved (op : Word)
  deriving DecidableEq, Repr

/-- Decode the first instruction of a list of bytes and give the rest of the list back (R70, R71). -/
def decode : List Byte → Except DecodeError (Instr × List Byte)
  | b0 :: b1 :: rest =>
    match decodeWord (wordOfBytes b0 b1) with
    | some i => .ok (i, rest)
    | none   => .error (.reserved (wordOfBytes b0 b1))
  | _ => .error .truncated

/-- The instruction the decoder reads from the table's number `w` of a word: one 16-bit word, stored
with its more significant byte at the lower address (R52). -/
def decodeTableWord (_nbits w : Nat) : Option Instr :=
  match decode [BitVec.ofNat 8 (w / 256), BitVec.ofNat 8 w] with
  | .ok (i, _) => some i
  | .error _   => none

/-! ### Encoding -/

/-- A word from `ir`, X, Y and N. -/
def packXYN (ir x y n : Nibble) : Word := ir ++ x ++ y ++ n

/-- A word from `ir`, X and NN. -/
def packXNN (ir x : Nibble) (nn : Byte) : Word := ir ++ x ++ nn

/-- A word from `ir` and NNN. -/
def packNNN (ir : Nibble) (nnn : Addr) : Word := ir ++ nnn

/-- The word of an instruction (R76, column `canonical`, with the unchecked nibbles as the term holds
them). -/
def encode : Instr → Word
  | .cls x         => packXNN 0x0 x 0xE0
  | .ret x         => packXNN 0x0 x 0xEE
  | .jp nnn        => packNNN 0x1 nnn
  | .call nnn      => packNNN 0x2 nnn
  | .seByte x nn   => packXNN 0x3 (nibbleOf x) nn
  | .sneByte x nn  => packXNN 0x4 (nibbleOf x) nn
  | .seReg x y n   => packXYN 0x5 (nibbleOf x) (nibbleOf y) n
  | .ldByte x nn   => packXNN 0x6 (nibbleOf x) nn
  | .addByte x nn  => packXNN 0x7 (nibbleOf x) nn
  | .ldReg x y     => packXYN 0x8 (nibbleOf x) (nibbleOf y) 0x0
  | .orReg x y     => packXYN 0x8 (nibbleOf x) (nibbleOf y) 0x1
  | .andReg x y    => packXYN 0x8 (nibbleOf x) (nibbleOf y) 0x2
  | .xorReg x y    => packXYN 0x8 (nibbleOf x) (nibbleOf y) 0x3
  | .addReg x y    => packXYN 0x8 (nibbleOf x) (nibbleOf y) 0x4
  | .subReg x y    => packXYN 0x8 (nibbleOf x) (nibbleOf y) 0x5
  | .shl x y       => packXYN 0x8 (nibbleOf x) (nibbleOf y) 0x6
  | .subnReg x y   => packXYN 0x8 (nibbleOf x) (nibbleOf y) 0x7
  | .shr x y       => packXYN 0x8 (nibbleOf x) (nibbleOf y) 0xE
  | .sneReg x y n  => packXYN 0x9 (nibbleOf x) (nibbleOf y) n
  | .ldI nnn       => packNNN 0xA nnn
  | .jpV0 nnn      => packNNN 0xB nnn
  | .rnd x nn      => packXNN 0xC (nibbleOf x) nn
  | .drw x y n     => packXYN 0xD (nibbleOf x) (nibbleOf y) n
  | .skp x         => packXNN 0xE (nibbleOf x) 0x9E
  | .sknp x        => packXNN 0xE (nibbleOf x) 0xA1
  | .ldVxDT x      => packXNN 0xF (nibbleOf x) 0x07
  | .ldVxK x       => packXNN 0xF (nibbleOf x) 0x0A
  | .ldDTVx x      => packXNN 0xF (nibbleOf x) 0x15
  | .ldSTVx x      => packXNN 0xF (nibbleOf x) 0x18
  | .addI x        => packXNN 0xF (nibbleOf x) 0x1E
  | .ldF x         => packXNN 0xF (nibbleOf x) 0x29
  | .ldB x         => packXNN 0xF (nibbleOf x) 0x33
  | .storeRegs x   => packXNN 0xF (nibbleOf x) 0x55
  | .loadRegs x    => packXNN 0xF (nibbleOf x) 0x65

/-- The two bytes of an instruction in memory, lowest address first (R52). -/
def encodeBytes (i : Instr) : List Byte :=
  [(encode i).extractLsb' 8 8, (encode i).extractLsb' 0 8]

/-! ### The opcode map as the spec prints it -/

/-- One row of the map: the row is selected when `op &&& mask = pattern` (R76). -/
structure OpcodeRow where
  pattern : Word
  mask    : Word
  deriving DecidableEq, Repr

/-- Does the row select the word? -/
def OpcodeRow.selects (r : OpcodeRow) (op : Word) : Bool := op &&& r.mask == r.pattern

/-- The 34 rows of R76, columns `match` and `mask`, rows 1 to 17. -/
def opcodeMapFirst : List OpcodeRow :=
  [⟨0x00E0, 0xF0FF⟩, ⟨0x00EE, 0xF0FF⟩, ⟨0x1000, 0xF000⟩, ⟨0x2000, 0xF000⟩, ⟨0x3000, 0xF000⟩,
   ⟨0x4000, 0xF000⟩, ⟨0x5000, 0xF000⟩, ⟨0x6000, 0xF000⟩, ⟨0x7000, 0xF000⟩, ⟨0x8000, 0xF00F⟩,
   ⟨0x8001, 0xF00F⟩, ⟨0x8002, 0xF00F⟩, ⟨0x8003, 0xF00F⟩, ⟨0x8004, 0xF00F⟩, ⟨0x8005, 0xF00F⟩,
   ⟨0x8006, 0xF00F⟩, ⟨0x8007, 0xF00F⟩]

/-- Rows 18 to 34 of R76. -/
def opcodeMapSecond : List OpcodeRow :=
  [⟨0x800E, 0xF00F⟩, ⟨0x9000, 0xF000⟩, ⟨0xA000, 0xF000⟩, ⟨0xB000, 0xF000⟩, ⟨0xC000, 0xF000⟩,
   ⟨0xD000, 0xF000⟩, ⟨0xE09E, 0xF0FF⟩, ⟨0xE0A1, 0xF0FF⟩, ⟨0xF007, 0xF0FF⟩, ⟨0xF00A, 0xF0FF⟩,
   ⟨0xF015, 0xF0FF⟩, ⟨0xF018, 0xF0FF⟩, ⟨0xF01E, 0xF0FF⟩, ⟨0xF029, 0xF0FF⟩, ⟨0xF033, 0xF0FF⟩,
   ⟨0xF055, 0xF0FF⟩, ⟨0xF065, 0xF0FF⟩]

/-- The opcode map of R76, in the document's order. -/
def opcodeMap : List OpcodeRow := opcodeMapFirst ++ opcodeMapSecond

/-- The row of R76 an instruction stands in, counted from 0. -/
def Instr.rowIndex : Instr → Nat
  | .cls _ => 0 | .ret _ => 1 | .jp _ => 2 | .call _ => 3 | .seByte _ _ => 4 | .sneByte _ _ => 5
  | .seReg _ _ _ => 6 | .ldByte _ _ => 7 | .addByte _ _ => 8 | .ldReg _ _ => 9 | .orReg _ _ => 10
  | .andReg _ _ => 11 | .xorReg _ _ => 12 | .addReg _ _ => 13 | .subReg _ _ => 14 | .shl _ _ => 15
  | .subnReg _ _ => 16 | .shr _ _ => 17 | .sneReg _ _ _ => 18 | .ldI _ => 19 | .jpV0 _ => 20
  | .rnd _ _ => 21 | .drw _ _ _ => 22 | .skp _ => 23 | .sknp _ => 24 | .ldVxDT _ => 25
  | .ldVxK _ => 26 | .ldDTVx _ => 27 | .ldSTVx _ => 28 | .addI _ => 29 | .ldF _ => 30 | .ldB _ => 31
  | .storeRegs _ => 32 | .loadRegs _ => 33

end Sys2Proof
end

