-- ==== Sys2Proof/Config.lean ====
section
/-! DEFINITION. The free values of the machine: what the host supplies at each iteration and what
memory holds before anything is written to it. Nothing in Lean can evaluate the two opaque constants,
so whatever is proved holds for every choice of them. -/

namespace Sys2Proof

/-- What the host gives the CORE in one iteration: the key inputs (R33), the random byte (R34) and the
wall-clock time of the iteration, which goes to the divider (R184). Ports of R195. -/
structure HostInput where
  /-- `key_down`, bit `k` is 1 when logical key `k` is pressed. -/
  keyDown : BitVec 16
  /-- `last_key`, the most recently pressed key. -/
  lastKey : Nibble
  /-- `rnd`, the byte that an executed CXNN consumes. -/
  rnd     : Byte
  /-- `elapsed`, in thirds of a nanosecond (DESIGN CHOICE, log entry 12, safe). -/
  elapsed : Nat
  deriving DecidableEq, Repr, Inhabited

namespace Config

/-- FREE VALUE: what the host supplies at iteration `n` when no input was laid down for it. The keys,
the random byte and the elapsed time are free at every step boundary (R206). DESIGN CHOICE, log
entry 2, safe. -/
opaque hostInput : Nat → HostInput

/-- FREE VALUE: `MEM_INIT`, the unspecified byte at an address that is neither glyph nor program and that
nothing has written (R37, decision D12). DESIGN CHOICE, log entry 9, safe. -/
opaque memInit : Nat → Byte

end Config

end Sys2Proof
end

