-- ==== Sys2Proof/Machine/Glyphs.lean ====
section
/-! DEFINITION. The glyph table: the type of the parameter `GLYPH_ROM` and its default (spec/20_memory.md R57, R58). -/

namespace Sys2Proof.Machine

/-- `GLYPH_ROM`: 80 bytes, the glyph of digit `d` in bytes `5 * d` to `5 * d + 4` (R5, R57, R58). -/
abbrev GlyphRom := Vector Byte 80

/-- The default table of R58, digits 0 to 7. PRESUMED by the spec itself (general knowledge G1), log entry 10,
unsafe. -/
def glyphRomLow : Vector Byte 40 :=
  #v[0xF0, 0x90, 0x90, 0x90, 0xF0,  0x20, 0x60, 0x20, 0x20, 0x70,
     0xF0, 0x10, 0xF0, 0x80, 0xF0,  0xF0, 0x10, 0xF0, 0x10, 0xF0,
     0x90, 0x90, 0xF0, 0x10, 0x10,  0xF0, 0x80, 0xF0, 0x10, 0xF0,
     0xF0, 0x80, 0xF0, 0x90, 0xF0,  0xF0, 0x10, 0x20, 0x40, 0x40]

/-- The default table of R58, digits 8 to F. -/
def glyphRomHigh : Vector Byte 40 :=
  #v[0xF0, 0x90, 0xF0, 0x90, 0xF0,  0xF0, 0x90, 0xF0, 0x10, 0xF0,
     0xF0, 0x90, 0xF0, 0x90, 0x90,  0xE0, 0x90, 0xE0, 0x90, 0xE0,
     0xF0, 0x80, 0x80, 0x80, 0xF0,  0xE0, 0x90, 0x90, 0x90, 0xE0,
     0xF0, 0x80, 0xF0, 0x80, 0xF0,  0xF0, 0x80, 0xF0, 0x80, 0x80]

/-- The default of `GLYPH_ROM` (R5, R58). -/
def defaultGlyphRom : GlyphRom := glyphRomLow ++ glyphRomHigh

end Sys2Proof.Machine
end

