-- ==== Sys2Proof/Machine/State.lean ====
section
/-! DEFINITION. The state of the machine, all of it (spec/10_state.md), as plain data; the reasons a step
can stop (spec/60_exceptions.md); and the state right after reset (R37, R200). -/

namespace Sys2Proof.Machine

/-- Memory: the bytes written since reset, as (address, byte) pairs in one canonical form (`Memory.wf` in
Ops.lean). What an address that is not listed reads as is `unlistedByte` in Ops.lean. -/
abbrev Memory := List Host.Cell

/-- The framebuffer: 32 rows of 64 pixels, `true` for on (R30). -/
abbrev Framebuffer := Vector (Vector Bool 64) 32

/-- The name of an error report (R178). -/
inductive ErrorCode where
  /-- 0: nothing to report. -/
  | none
  /-- 1: RET with an empty call stack (R170). -/
  | stackUnderflow
  /-- 2: FX1E passed the addressable range; a status, the machine goes on (R171). -/
  | addressOverflow
  /-- 3: the program is longer than 3584 bytes (R172). -/
  | programTooLarge
  /-- 4: a data access above 0xFFF (R173). -/
  | memOutOfRange
  /-- 5: a step with pc above 0xFFE (R174). -/
  | fetchOutOfRange
  /-- 6: a word that matches no row (R175). -/
  | reservedOpcode
  /-- 7: a key number above 15 (R176). -/
  | keyIndexOutOfRange
  /-- 8: CALL at the bound of the stack (R177). -/
  | stackOverflow
  deriving DecidableEq, Repr

/-- The error report of a step: `err_code` and `err_value` (R178, R195). -/
structure Report where
  code  : ErrorCode
  value : Nat
  deriving DecidableEq, Repr

/-- Code 0, value 0 (R178). -/
def Report.clear : Report := ⟨.none, 0⟩

/-- What is fixed for a run: the open parameters of R5, arguments of the step relation (R39), carried in the state so
that every statement holds for each value of them. No step changes them. -/
structure Params where
  /-- `GLYPH_ROM`: what 0x000 .. 0x04F reads as until it is written (R5, R37, R58; decision D13). DESIGN CHOICE: held in
  State; log entry 10, safe. -/
  glyphRom : GlyphRom
  /-- `STACK_DEPTH`: `none`, or the number of entries the call stack may hold (R28). DESIGN CHOICE: held
  in State; log entry 5, safe. -/
  stackDepth : Option Nat
  /-- The host's choice after `StackUnderflow`: `false` halts, `true` continues (R170, R178, R181).
  DESIGN CHOICE: a field of the model; log entry 6, safe. -/
  continueAfterUnderflow : Bool
  deriving DecidableEq, Repr

/-- The parameters of `State.reset`: the spec's default of `GLYPH_ROM` (PRESUMED, log entry 10, unsafe), an unbounded stack
and a host that halts after `StackUnderflow` (DESIGN CHOICE, log entries 5 and 6, safe). -/
def Params.default : Params := ⟨defaultGlyphRom, none, false⟩

/-- The machine. -/
structure State where
  /-- `V0` .. `VF` (R20). -/
  v         : Vector Byte 16
  /-- The address register (R23). -/
  I         : Word
  /-- The program counter (R24). -/
  pc        : Word
  /-- The call stack, newest entry first (R27). -/
  stack     : List Word
  /-- The delay counter (R29). -/
  dt        : Byte
  /-- The sound counter (R29). -/
  st        : Byte
  /-- The framebuffer (R30). -/
  fb        : Framebuffer
  /-- The 4096-byte memory (R31). -/
  mem       : Memory
  /-- The divider's accrued time, in thirds of a nanosecond (R35; the unit: log entry 12). -/
  acc       : Nat
  /-- The report of the last step (R178). -/
  report    : Report
  /-- The fault mark that no later step clears (R181). -/
  faulted   : Bool
  /-- The inputs of this iteration, as the last poll left them (R33, R34). -/
  input     : HostInput
  /-- The model's own: inputs laid down for the coming iterations, the next first (log entry 2). -/
  pending   : List HostInput
  /-- The model's own: host iterations so far, the argument of the free inputs (log entry 2). -/
  iteration : Nat
  /-- Parameters of the run (R39). -/
  params    : Params
  deriving DecidableEq, Repr

/-- Why the machine stops. Each carries the value the report records (R178) and the state the fault leaves
(R180): only pc has moved, or for a fetch nothing has, beside the report and the fault mark. -/
inductive Fault where
  /-- Raised by RET on an empty call stack when the host's choice is to halt (R100, R170); `value` is the
  address of the RET. SAFE: the model stops where the host may also go on. -/
  | stackUnderflow (value : Nat) (left : State)
  /-- Raised by DXYN, FX33, FX55 and FX65 when the highest address they would use is above 0xFFF (R173);
  `value` is that address. SAFE: the document gives such an access no behaviour. -/
  | memOutOfRange (value : Nat) (left : State)
  /-- Raised by a step that begins with pc above 0xFFE (R174); `value` is pc. SAFE: the document gives such
  a fetch no behaviour. -/
  | fetchOutOfRange (value : Nat) (left : State)
  /-- Raised by a step whose word matches no row of R76 (R175); `value` is the word. SAFE: the document
  gives such a word no behaviour. -/
  | reservedOpcode (value : Nat) (left : State)
  /-- Raised by EX9E and EXA1 when Vx is above 15 (R176); `value` is Vx. SAFE: the document's key query is
  defined for 0 to 15 only. -/
  | keyIndexOutOfRange (value : Nat) (left : State)
  /-- Raised by CALL when the call stack holds STACK_DEPTH entries (R177); `value` is the address of the
  CALL. SAFE: the document names no such bound. -/
  | stackOverflow (value : Nat) (left : State)
  deriving DecidableEq, Repr

/-- Why the model does not answer. -/
inductive Refusal where
  /-- Raised by `exec` for an instruction that has no meaning yet; no instruction is left so. SAFE. -/
  | notModelled (mnemonic : String)
  /-- Raised by the program load for a program of more than 3584 bytes (R172, R202); no instruction raises
  it. SAFE: nothing is written and no step is taken, as R172 says. -/
  | programTooLarge (length : Nat)
  deriving DecidableEq, Repr

/-- One step's outcome. -/
abbrev Outcome := Host.Outcome State Fault Refusal

/-- The machine right after reset (R37, R200, R218): registers zeroed, pc at 0x200, glyphs in memory (an
unlisted address reads as its glyph byte), nothing else written. `I`, the stack, the timers, the framebuffer
and `acc` have the values of decision D11 (log entry 11, unsafe). `input` is DESIGN CHOICE zero (log entry 3,
safe: a poll replaces it before anything reads it). `params` is `Params.default`; `State.resetWith` in Launch.lean is
reset for any other. `pending` and `iteration` are DESIGN CHOICE empty and 0 (log
entry 2). -/
def State.reset : State where
  v         := Vector.replicate 16 0
  I         := 0
  pc        := 0x200
  stack     := []
  dt        := 0
  st        := 0
  fb        := Vector.replicate 32 (Vector.replicate 64 false)
  mem       := []
  acc       := 0
  report    := .clear
  faulted   := false
  input     := ⟨0, 0, 0, 0⟩
  pending   := []
  iteration := 0
  params    := .default

end Sys2Proof.Machine
end

