-- ==== Sys2Proof/Machine/Ops.lean ====
section
/-! DEFINITION. The named operations of the machine: one update per field of the state, memory with its
canonical form, the framebuffer unit, the call stack, and raising or reporting an error
(spec/20_memory.md, spec/43_display.md R145, spec/60_exceptions.md R178 - R181). -/

namespace Sys2Proof.Machine

/-! ### Registers -/

/-- The flag register is general register 0xF (R21). -/
def VF : Reg := 15

/-- Read general register `x` (R9). -/
def State.reg (s : State) (x : Reg) : Byte := s.v[x]

/-- Write general register `x` (R9). No register is hardwired (R20). -/
def State.setReg (s : State) (x : Reg) (b : Byte) : State := { s with v := s.v.set x b }

/-- Write the address register. -/
def State.setI (s : State) (w : Word) : State := { s with I := w }

/-- Write the program counter. -/
def State.setPc (s : State) (w : Word) : State := { s with pc := w }

/-- Replace the call stack. -/
def State.setStack (s : State) (st : List Word) : State := { s with stack := st }

/-- Write the delay counter. -/
def State.setDT (s : State) (b : Byte) : State := { s with dt := b }

/-- Write the sound counter. -/
def State.setST (s : State) (b : Byte) : State := { s with st := b }

/-- Replace the framebuffer. -/
def State.setFb (s : State) (fb : Framebuffer) : State := { s with fb := fb }

/-- Replace the memory. -/
def State.setMem (s : State) (m : Memory) : State := { s with mem := m }

/-- Set the divider's accrued time. -/
def State.setAcc (s : State) (t : Nat) : State := { s with acc := t }

/-- Set the report of the step. -/
def State.setReport (s : State) (r : Report) : State := { s with report := r }

/-- Set the fault mark; nothing clears it (R181). -/
def State.setFaulted (s : State) : State := { s with faulted := true }

/-- Replace the inputs of the iteration. -/
def State.setInput (s : State) (h : HostInput) : State := { s with input := h }

/-! ### Memory -/

/-- The byte reset is known to leave at an address: its byte of `GLYPH_ROM` in 0x000 .. 0x04F, none elsewhere
(R37). -/
def resetByte? (g : GlyphRom) (a : Nat) : Option Byte := g.toList[a]?

/-- What an address that memory does not list reads as: its glyph byte, or the free byte `MEM_INIT`
(R37; log entries 9 and 10). -/
def unlistedByte (g : GlyphRom) (a : Nat) : Byte := (resetByte? g a).getD (Config.memInit a)

/-- The byte memory lists at an address. -/
def Memory.lookup : Memory → Nat → Option Byte
  | [], _ => none
  | (k, b) :: m, a => if a = k then some b else Memory.lookup m a

/-- Read one byte: the latest write, or the reset value (R60). -/
def Memory.read (g : GlyphRom) (m : Memory) (a : Nat) : Byte := (Memory.lookup m a).getD (unlistedByte g a)

/-- List a byte at its place in the rising order of addresses. -/
def Memory.insert : Memory → Nat → Byte → Memory
  | [], a, b => [(a, b)]
  | (k, c) :: m, a, b =>
    if a < k then (a, b) :: (k, c) :: m
    else if a = k then (a, b) :: m
    else (k, c) :: Memory.insert m a b

/-- List no byte at an address. -/
def Memory.erase (m : Memory) (a : Nat) : Memory := m.filter (fun c => c.1 != a)

/-- Write one byte. An address above 0xFFF does not exist (R50): every instruction checks its addresses
before it writes (R136), and nothing is stored there. Writing the byte reset is known to leave removes the
entry, so that the form stays canonical. -/
def Memory.write (g : GlyphRom) (m : Memory) (a : Nat) (b : Byte) : Memory :=
  if 0xFFF < a then m
  else if resetByte? g a = some b then Memory.erase m a
  else Memory.insert m a b

/-- The canonical form: addresses strictly rising and inside 0x000 .. 0xFFF, and no entry equal to the byte
reset is known to leave there. -/
def Memory.wf (g : GlyphRom) (m : Memory) : Bool :=
  decide (m.Pairwise fun p q => p.1 < q.1) &&
    m.all fun c => decide (c.1 ≤ 0xFFF) && decide (resetByte? g c.1 ≠ some c.2)

/-- The byte at an address (R9, `MemRead(addr, 1)`). -/
def State.byte (s : State) (a : Nat) : Byte := Memory.read s.params.glyphRom s.mem a

/-- Write the byte at an address (R9, `MemWrite(addr, 1, v)`). -/
def State.writeByte (s : State) (a : Nat) (b : Byte) : State :=
  s.setMem (Memory.write s.params.glyphRom s.mem a b)

/-! ### The framebuffer unit -/

/-- `get(x, y)` (R145). A coordinate outside the grid cannot be written down (R144). -/
def Framebuffer.pixel (fb : Framebuffer) (cx : Fin 64) (cy : Fin 32) : Bool := fb[cy][cx]

/-- `set(x, y, bool)` (R145). -/
def Framebuffer.setPixel (fb : Framebuffer) (cx : Fin 64) (cy : Fin 32) (on : Bool) : Framebuffer :=
  fb.set cy (fb[cy].set cx on)

/-- `clear()`: every pixel off (R145). -/
def Framebuffer.allOff : Framebuffer := Vector.replicate 32 (Vector.replicate 64 false)

/-! ### Errors -/

/-- `report E`: set the report of this step and go on (R9, R171). -/
def State.reportError (s : State) (code : ErrorCode) (value : Nat) : State := s.setReport ⟨code, value⟩

/-- What an error that counts as a fault leaves: its report, and the mark no later step clears (R178,
R181). -/
def State.markFault (s : State) (code : ErrorCode) (value : Nat) : State :=
  (s.reportError code value).setFaulted

/-- `raise E`: end the step with a fault (R9, R180). There is no trap entry: nothing is saved, no mode
changes and control goes nowhere; the state is as the raising rule left it. -/
def raise (fault : Nat → State → Fault) (code : ErrorCode) (value : Nat) (s : State) : Outcome :=
  .fault (fault value (s.markFault code value))

/-- The address the running instruction was fetched from: pc already holds the address of the following one
(R73). -/
def State.fetchedFrom (s : State) : Nat := (s.pc - 2).toNat

/-- `StackUnderflow`: a fault if the host's choice is to halt; if it is to continue, the RET has acted as a
no-op, reported and marked (R170, R181; log entry 6). -/
def stackUnderflow (s : State) : Outcome :=
  if s.params.continueAfterUnderflow then .next (s.markFault .stackUnderflow s.fetchedFrom)
  else raise .stackUnderflow .stackUnderflow s.fetchedFrom s

/-- Answer `k` if the highest data address is inside memory, else raise `MemOutOfRange` before anything is
written (R55, R136, R173). -/
def withinMemory (highest : Nat) (s : State) (k : State) : Outcome :=
  if 0xFFF < highest then raise .memOutOfRange .memOutOfRange highest s else .next k

/-! ### The call stack -/

/-- `push(v)` (R9, R27). -/
def State.push (s : State) (w : Word) : State := s.setStack (w :: s.stack)

/-- Is the call stack at its bound? `none` is no bound (R28). -/
def State.stackFull (s : State) : Bool :=
  match s.params.stackDepth with
  | none   => false
  | some d => s.stack.length == d

end Sys2Proof.Machine
end

