-- ==== Sys2Proof/Machine/HostPort.lean ====
section
/-! DEFINITION. The host's side of the CORE (spec/70_reset_and_hazards.md R202 - R207, spec/60_exceptions.md
R188 - R190, R195): the program load, the input poll, and the read-only views. -/

namespace Sys2Proof.Machine

/-- `PROG_BASE` (R5). -/
def progBase : Nat := 0x200

/-- `PROG_MAX`, the bytes from 0x200 to 0xFFF (R5, R172). -/
def progMax : Nat := 3584

/-- Copy bytes to rising addresses from `a` (R202). -/
def loadBytes : Nat → List Byte → State → State
  | _, [], s => s
  | a, b :: bs, s => loadBytes (a + 1) bs (s.writeByte a b)

/-- Program load: each byte is copied verbatim from 0x200 on; a program of more than 3584 bytes is refused
whole, and no step is taken (R172, R202). -/
def loadProgram (p : List Byte) (s : State) : Outcome :=
  if progMax < p.length then .refused (.programTooLarge p.length)
  else .next (loadBytes progBase p s)

/-- Poll the inputs before a step: the next one laid down, or free ones (R33, R205; log entry 2). The report
of the step before is set to code 0 here: DESIGN CHOICE, log entry 8, safe (R178 says only that it is replaced). -/
def State.poll (s : State) : State :=
  let s' := { s.setReport .clear with iteration := s.iteration + 1 }
  match s.pending with
  | []          => s'.setInput (Config.hostInput s.iteration)
  | next :: rest => { s'.setInput next with pending := rest }

/-- The render port: `snap[cy * 64 + cx] = FB[cx, cy]` (R188). -/
def State.snapshot (s : State) : BitVec 2048 :=
  BitVec.ofFnLE fun k : Fin 2048 =>
    s.fb.pixel ⟨k.val % 64, Nat.mod_lt _ (by decide)⟩ ⟨k.val / 64, Nat.div_lt_of_lt_mul k.isLt⟩

/-- The sound output: `ST` as a count (R189). -/
def State.soundCount (s : State) : Byte := s.st

/-- `err_code` as a number (R178). -/
def ErrorCode.number : ErrorCode → Nat
  | .none => 0
  | .stackUnderflow => 1
  | .addressOverflow => 2
  | .programTooLarge => 3
  | .memOutOfRange => 4
  | .fetchOutOfRange => 5
  | .reservedOpcode => 6
  | .keyIndexOutOfRange => 7
  | .stackOverflow => 8

/-- The state a fault leaves (R180). -/
def Fault.left : Fault → State
  | .stackUnderflow _ s | .memOutOfRange _ s | .fetchOutOfRange _ s | .reservedOpcode _ s
  | .keyIndexOutOfRange _ s | .stackOverflow _ s => s

/-- The error report the host gets from a step or from the load (R178, R195 `err_code`, `err_value`). -/
def reportOf : Outcome → Report
  | .next s                         => s.report
  | .fault f                        => f.left.report
  | .refused (.programTooLarge len) => ⟨.programTooLarge, len⟩
  | .refused _                      => .clear

end Sys2Proof.Machine
end

