-- ==== Sys2Proof/Machine/Timers.lean ====
section
/-! DEFINITION. Timer access instructions (spec/45_timers.md R160 - R163) and the timer unit
(spec/60_exceptions.md R182 - R187). Which of the three codes does what is PRESUMED by the spec itself
(general knowledge G2; log entry 20). -/

namespace Sys2Proof.Machine

/-- LD Vx, DT (R161). -/
def execLdVxDT (x : Reg) (s : State) : Outcome := .next (s.setReg x s.dt)

/-- LD DT, Vx (R162). -/
def execLdDTVx (x : Reg) (s : State) : Outcome := .next (s.setDT (s.reg x))

/-- LD ST, Vx (R163). -/
def execLdSTVx (x : Reg) (s : State) : Outcome := .next (s.setST (s.reg x))

/-- One counter when a tick may fire: one less if it fires and the counter is not 0 (R29, R183). -/
def countDown (fires : Bool) (c : Byte) : Byte := if c = 0 then 0 else if fires then c - 1 else c

/-- Both counters when a tick may fire. They are independent, and nothing else changes (R183). -/
def State.tickIf (s : State) (fires : Bool) : State :=
  (s.setDT (countDown fires s.dt)).setST (countDown fires s.st)

/-- `tick()` (R183). -/
def State.tick (s : State) : State := s.tickIf true

/-- The timer clock's period, 1/60 s, in thirds of a nanosecond (R184; the unit: log entry 12). -/
def tickPeriod : Nat := 50000000

/-- Does the divider fire in this iteration? Strictly more than one period has accrued (R184). -/
def State.tickFires (s : State) : Bool := decide (tickPeriod < s.acc + s.input.elapsed)

/-- The end of an iteration: accrue its time and tick at most once; a tick takes one period off and keeps the
remainder (R184, R185; log entry 13). -/
def State.accrue (s : State) : State :=
  let total := s.acc + s.input.elapsed
  (s.tickIf s.tickFires).setAcc (if s.tickFires then total - tickPeriod else total)

end Sys2Proof.Machine
end

