-- ==== Sys2Proof/Machine/Cycle.lean ====
section
/-! DEFINITION. The instruction cycle around the meanings (spec/30_encoding.md R70 - R73): fetch, advance,
decode, and the end of the iteration (spec/70_reset_and_hazards.md R205). -/

namespace Sys2Proof.Machine

/-- The word at an address, the byte there in bits 15:8 (R52). -/
def State.wordAt (s : State) (a : Nat) : Word := wordOfBytes (s.byte a) (s.byte (a + 1))

/-- `pc <- a + 2` (R73). -/
def State.advance (s : State) : State := s.setPc (s.pc + 2)

/-- Fetch, advance and decode: the instruction and the state it runs in, or the outcome that ends the step
(R70, R73, R174, R175). -/
def fetchDecode (s : State) : Except Outcome (Instr × State) :=
  if 0xFFE < s.pc.toNat then .error (raise .fetchOutOfRange .fetchOutOfRange s.pc.toNat s)
  else
    match decodeWord (s.wordAt s.pc.toNat) with
    | some i => .ok (i, s.advance)
    | none   => .error (raise .reservedOpcode .reservedOpcode (s.wordAt s.pc.toNat).toNat s.advance)

/-- After the instruction the host renders, which changes nothing (R188), and the divider accrues the time of
the iteration (R184). A stopped machine accrues nothing (R181). -/
def finish : Outcome → Outcome
  | .next s    => .next s.accrue
  | .fault f   => .fault f
  | .refused r => .refused r

/-- Store an instruction word at an address, more significant byte first (R52). -/
def State.storeWord (s : State) (a : Nat) (w : Nat) : State :=
  (s.writeByte a (BitVec.ofNat 8 (w / 256))).writeByte (a + 1) (BitVec.ofNat 8 w)

end Sys2Proof.Machine
end

