-- ==== Sys2Proof/Machine/Flags.lean ====
section
/-! DEFINITION. The flag computations: every value an instruction writes to VF as a flag (spec/10_state.md
R21). A flag is the number 0 or 1 (decisions D6, D7; log entry 15). -/

namespace Sys2Proof.Machine

/-- A condition as the number 1 or 0. -/
def flag (c : Bool) : Byte := if c then 1 else 0

/-- The nine-bit sum of R116, `zext_9(a) + zext_9(b)`. -/
def sum9 (a b : Byte) : BitVec 9 := a.setWidth 9 + b.setWidth 9

/-- Carry out of 8XY4: bit 8 of the nine-bit sum (R116). -/
def carryFlag (a b : Byte) : Byte := flag (sum9 a b)[8]

/-- The strict comparison of 8XY5 and 8XY7: 1 if `p > q` unsigned, else 0 (R117, R119, R122). -/
def greaterFlag (p q : Byte) : Byte := flag (q.ult p)

/-- The bit 8XY6 shifts out, bit 7 (R118). -/
def highBitFlag (a : Byte) : Byte := flag a[7]

/-- The bit 8XYE shifts out, bit 0 (R120). -/
def lowBitFlag (a : Byte) : Byte := flag a[0]

/-- Overflow of FX1E: 1 if the sum is at least 4096, else 0 (R131). -/
def addressOverflowFlag (sum : Nat) : Byte := flag (decide (4096 ≤ sum))

/-- The collision flag of DXYN (R142). -/
def collisionFlag (hit : Bool) : Byte := flag hit

end Sys2Proof.Machine
end

