-- ==== Sys2Proof/Machine/Alu.lean ====
section
/-! DEFINITION. Load, arithmetic, logic, shift and random instructions (spec/41_alu.md R110 - R122). The
statements of a rule run in the order written, and a later one sees what an earlier one wrote (R10, decision
D6; log entry 15): this decides the result only where X or Y is 0xF beside a flag write. -/

namespace Sys2Proof.Machine

/-- LD Vx, byte (R110). -/
def execLdByte (x : Reg) (nn : Byte) (s : State) : Outcome := .next (s.setReg x nn)

/-- ADD Vx, byte (R111): modulo 256, no flag. -/
def execAddByte (x : Reg) (nn : Byte) (s : State) : Outcome := .next (s.setReg x (s.reg x + nn))

/-- LD Vx, Vy (R112). -/
def execLdReg (x y : Reg) (s : State) : Outcome := .next (s.setReg x (s.reg y))

/-- OR Vx, Vy (R113). -/
def execOrReg (x y : Reg) (s : State) : Outcome := .next (s.setReg x (s.reg x ||| s.reg y))

/-- AND Vx, Vy (R114). -/
def execAndReg (x y : Reg) (s : State) : Outcome := .next (s.setReg x (s.reg x &&& s.reg y))

/-- XOR Vx, Vy (R115). -/
def execXorReg (x y : Reg) (s : State) : Outcome := .next (s.setReg x (s.reg x ^^^ s.reg y))

/-- ADD Vx, Vy (R116): the sum, then the carry, written last. -/
def execAddReg (x y : Reg) (s : State) : Outcome :=
  let a := s.reg x
  let b := s.reg y
  .next ((s.setReg x ((sum9 a b).setWidth 8)).setReg VF (carryFlag a b))

/-- SUB Vx, Vy (R117): the flag first, then the difference of the registers as they then are. -/
def execSubReg (x y : Reg) (s : State) : Outcome :=
  let s' := s.setReg VF (greaterFlag (s.reg x) (s.reg y))
  .next (s'.setReg x (s'.reg x - s'.reg y))

/-- SHL Vx (R118): the flag first, then a shift LEFT by one of the register as it then is. -/
def execShl (x : Reg) (s : State) : Outcome :=
  let s' := s.setReg VF (highBitFlag (s.reg x))
  .next (s'.setReg x (s'.reg x <<< 1))

/-- SUBN Vx, Vy (R119): the flag first, then the reverse difference of the registers as they then are. -/
def execSubnReg (x y : Reg) (s : State) : Outcome :=
  let s' := s.setReg VF (greaterFlag (s.reg y) (s.reg x))
  .next (s'.setReg x (s'.reg y - s'.reg x))

/-- SHR Vx (R120): the flag first, then a logical shift RIGHT by one of the register as it then is. -/
def execShr (x : Reg) (s : State) : Outcome :=
  let s' := s.setReg VF (lowBitFlag (s.reg x))
  .next (s'.setReg x (s'.reg x >>> 1))

/-- RND Vx, byte (R121): the random byte of this iteration, a free value (log entry 4). -/
def execRnd (x : Reg) (nn : Byte) (s : State) : Outcome := .next (s.setReg x (s.input.rnd &&& nn))

end Sys2Proof.Machine
end

