-- ==== Sys2Proof/Machine/Operands.lean ====
section
/-! DEFINITION. The operand forms (spec/30_encoding.md R74, spec/42_memory_index.md R136): registers are read
and written by Ops.lean; here are the immediates used as addresses, effective addresses, and the key operand. -/

namespace Sys2Proof.Machine

/-- `zext_16(NNN)`: an absolute address (R74). -/
def absolute (nnn : Addr) : Word := nnn.setWidth 16

/-- `zext_16(x[0]) + zext_16(NNN)`, not reduced: at most 0x10FE, so 16 bits hold it (R107). -/
def offsetByV0 (s : State) (nnn : Addr) : Word := (s.reg 0).setWidth 16 + nnn.setWidth 16

/-- The address of element `k` of a block at `I`: `I + k`, not reduced (R136). -/
def State.effective (s : State) (k : Nat) : Nat := s.I.toNat + k

/-- The glyph address of a digit: `(v & 0x0F) * 5`, at most 75 (R132). -/
def glyphAddress (b : Byte) : Word := (b &&& 0x0F).setWidth 16 * 5

/-- The next instruction is skipped: 2 more on pc (R12, R25). -/
def State.skipIf (s : State) (c : Bool) : State := s.setPc (if c then s.pc + 2 else s.pc)

/-- `key_down(k)` of this iteration (R9, R33). -/
def State.keyDown (s : State) (k : Nat) : Bool := s.input.keyDown.getLsbD k

/-- Is at least one of the 16 keys down? (R152) -/
def State.anyKeyDown (s : State) : Bool := s.input.keyDown != 0

end Sys2Proof.Machine
end

