-- ==== Sys2Proof/Machine/Control.lean ====
section
/-! DEFINITION. Control transfer (spec/40_control_flow.md R100 - R107). pc already holds the address of the
following instruction (R73). -/

namespace Sys2Proof.Machine

/-- RET (R100): pop the newest return address, as it is, into pc. -/
def execRet (s : State) : Outcome :=
  match s.stack with
  | []        => stackUnderflow s
  | a :: rest => .next ((s.setStack rest).setPc a)

/-- JP addr (R101). -/
def execJp (nnn : Addr) (s : State) : Outcome := .next (s.setPc (absolute nnn))

/-- CALL addr (R102): push the address of the following instruction, unless the stack is at its bound
(R177). -/
def execCall (nnn : Addr) (s : State) : Outcome :=
  if s.stackFull then raise .stackOverflow .stackOverflow s.fetchedFrom s
  else .next ((s.push s.pc).setPc (absolute nnn))

/-- SE Vx, byte (R103). -/
def execSeByte (x : Reg) (nn : Byte) (s : State) : Outcome := .next (s.skipIf (s.reg x == nn))

/-- SNE Vx, byte (R104). -/
def execSneByte (x : Reg) (nn : Byte) (s : State) : Outcome := .next (s.skipIf (s.reg x != nn))

/-- SE Vx, Vy (R105). -/
def execSeReg (x y : Reg) (s : State) : Outcome := .next (s.skipIf (s.reg x == s.reg y))

/-- SNE Vx, Vy (R106). -/
def execSneReg (x y : Reg) (s : State) : Outcome := .next (s.skipIf (s.reg x != s.reg y))

/-- JP V0, addr (R107): the sum is not reduced. -/
def execJpV0 (nnn : Addr) (s : State) : Outcome := .next (s.setPc (offsetByV0 s nnn))

end Sys2Proof.Machine
end

