-- ==== Sys2Proof/Machine/Display.lean ====
section
/-! DEFINITION. Display instructions, sprite composer and collision detector (spec/43_display.md R140 - R146). -/

namespace Sys2Proof.Machine

/-- CLS (R140). -/
def execCls (s : State) : Outcome := .next (s.setFb Framebuffer.allOff)

/-- What the composer works on: the framebuffer, and whether a lit pixel was turned off so far. -/
structure Canvas where
  fb  : Framebuffer
  hit : Bool
  deriving DecidableEq, Repr

/-- A sprite bit of 1 meets a pixel: a lit one is turned off and is a collision, a dark one is turned on
(R142). -/
def plot (cx : Fin 64) (cy : Fin 32) (c : Canvas) : Canvas :=
  if c.fb.pixel cx cy then ⟨c.fb.setPixel cx cy false, true⟩ else ⟨c.fb.setPixel cx cy true, c.hit⟩

/-- The first `k` columns of one sprite row, most significant bit first; a column past 63 is clipped, with
all after it (R142, R144). -/
def composeColumns (ox : Nat) (cy : Fin 32) (row : Byte) : Nat → Canvas → Canvas
  | 0, c => c
  | k + 1, c =>
    let c' := composeColumns ox cy row k c
    if h : ox + k < 64 then
      if row.getLsbD (7 - k) then plot ⟨ox + k, h⟩ cy c' else c'
    else c'

/-- The first `k` rows of the sprite at `I`, each 8 columns wide (R142, R143). -/
def composeRows (s : State) (ox oy : Nat) : Nat → Canvas → Canvas
  | 0, c => c
  | k + 1, c =>
    let c' := composeRows s ox oy k c
    if h : oy + k < 32 then composeColumns ox ⟨oy + k, h⟩ (s.byte (s.effective k)) 8 c' else c'

/-- The sprite's origin column, `x[X] mod 64` (R141). -/
def originColumn (s : State) (x : Reg) : Nat := (s.reg x).toNat % 64

/-- The sprite's origin row, `x[Y] mod 32` (R141). -/
def originRow (s : State) (y : Reg) : Nat := (s.reg y).toNat % 32

/-- The rows that are not clipped: `min(N, 32 - oy)` (R141). -/
def drawnRows (s : State) (y : Reg) (n : Nibble) : Nat := min n.toNat (32 - originRow s y)

/-- The highest address a DRW reads; 0 when it draws no row and so reads none (R141). -/
def highestSpriteAddress (s : State) (y : Reg) (n : Nibble) : Nat :=
  if drawnRows s y n = 0 then 0 else s.effective (drawnRows s y n - 1)

/-- DRW Vx, Vy, n (R141): the origin is sampled before VF is reset (decision D22; log entry 21), a clipped row
is not read, VF is the collision flag on every execution. -/
def execDrw (x y : Reg) (n : Nibble) (s : State) : Outcome :=
  withinMemory (highestSpriteAddress s y n) s <|
    let c := composeRows s (originColumn s x) (originRow s y) (drawnRows s y n) ⟨s.fb, false⟩
    (s.setReg VF (collisionFlag c.hit)).setFb c.fb

end Sys2Proof.Machine
end

