-- ==== Sys2Proof/Machine/Index.lean ====
section
/-! DEFINITION. Address-register and memory instructions (spec/42_memory_index.md R130 - R136). -/

namespace Sys2Proof.Machine

/-- LD I, addr (R130). -/
def execLdI (nnn : Addr) (s : State) : Outcome := .next (s.setI (absolute nnn))

/-- ADD I, Vx (R131): modulo 4096, the overflow in VF on every execution, and `AddressOverflow` as a status
(R171). The sum is computed before any write. -/
def execAddI (x : Reg) (s : State) : Outcome :=
  let sum := s.I.toNat + (s.reg x).toNat
  let s' := (s.setI (BitVec.ofNat 16 (sum % 4096))).setReg VF (addressOverflowFlag sum)
  .next (if 4096 ≤ sum then s'.reportError .addressOverflow sum else s')

/-- LD F, Vx (R132). -/
def execLdF (x : Reg) (s : State) : Outcome := .next (s.setI (glyphAddress (s.reg x)))

/-- The three decimal digits of a byte: hundreds, tens, units (R133). -/
def hundreds (b : Byte) : Byte := b / 100
/-- See `hundreds`. -/
def tens (b : Byte) : Byte := (b / 10) % 10
/-- See `hundreds`. -/
def units (b : Byte) : Byte := b % 10

/-- LD B, Vx (R133). -/
def execLdB (x : Reg) (s : State) : Outcome :=
  let b := s.reg x
  withinMemory (s.effective 2) s <|
    ((s.writeByte (s.effective 0) (hundreds b)).writeByte (s.effective 1) (tens b)).writeByte
      (s.effective 2) (units b)

/-- Store registers `V0` .. `V(k-1)` at `I`, lowest first (R134). -/
def storeBlock : Nat → State → State
  | 0, s => s
  | k + 1, s =>
    let s' := storeBlock k s
    if h : k < 16 then s'.writeByte (s'.effective k) (s'.reg ⟨k, h⟩) else s'

/-- Load registers `V0` .. `V(k-1)` from `I`, lowest first (R135). -/
def loadBlock : Nat → State → State
  | 0, s => s
  | k + 1, s =>
    let s' := loadBlock k s
    if h : k < 16 then s'.setReg ⟨k, h⟩ (s'.byte (s'.effective k)) else s'

/-- LD [I], Vx (R134): `V0` .. `Vx`, x included; `I` unchanged (decision D21; log entry 19). -/
def execStoreRegs (x : Reg) (s : State) : Outcome :=
  withinMemory (s.effective x) s (storeBlock (x + 1) s)

/-- LD Vx, [I] (R135): `V0` .. `Vx`, x included; `I` unchanged (decision D21; log entry 19). -/
def execLoadRegs (x : Reg) (s : State) : Outcome :=
  withinMemory (s.effective x) s (loadBlock (x + 1) s)

end Sys2Proof.Machine
end

