-- ==== Sys2Proof/Machine/Keypad.lean ====
section
/-! DEFINITION. Keypad instructions (spec/44_keypad.md R150 - R153). The key inputs are those of this
iteration's poll (R33). There is no "awaiting key" flag (R153). -/

namespace Sys2Proof.Machine

/-- Answer `k` if Vx is a key number, 0 to 15, else raise `KeyIndexOutOfRange` (R150, R151, R176). -/
def withKey (x : Reg) (s : State) (k : State) : Outcome :=
  if 15 < (s.reg x).toNat then raise .keyIndexOutOfRange .keyIndexOutOfRange (s.reg x).toNat s
  else .next k

/-- SKP Vx (R150). -/
def execSkp (x : Reg) (s : State) : Outcome :=
  withKey x s (s.skipIf (s.keyDown (s.reg x).toNat))

/-- SKNP Vx (R151). -/
def execSknp (x : Reg) (s : State) : Outcome :=
  withKey x s (s.skipIf (!s.keyDown (s.reg x).toNat))

/-- LD Vx, K (R152): with a key down, the most recently pressed key (decision D9; log entry 18); with none,
pc is put back and the same instruction runs in the next step. -/
def execLdVxK (x : Reg) (s : State) : Outcome :=
  .next (if s.anyKeyDown then s.setReg x (s.input.lastKey.setWidth 8) else s.setPc (s.pc - 2))

end Sys2Proof.Machine
end

