-- ==== Sys2Proof/Machine/Step.lean ====
section
/-! DEFINITION. One step of the machine: one iteration of the host loop, in its fixed order (spec/00_scope.md
R6, spec/70_reset_and_hazards.md R205): poll, one instruction, accrue time and tick at most once. -/

namespace Sys2Proof.Machine

/-- One iteration: poll the inputs, fetch, advance, decode, run exactly one instruction, and let the divider
accrue (R6, R73, R205; log entry 1). -/
def step (s : State) : Host.Outcome State Fault Refusal :=
  match fetchDecode s.poll with
  | .error o      => o
  | .ok (i, s')   => finish (exec i s')

/-- The instruction word `w` stored where the next step fetches, at pc (R70). It stands for the program load
(R202; log entry 23). -/
def State.withFetchWord (s : State) (_nbits w : Nat) : State := s.storeWord s.pc.toNat w

end Sys2Proof.Machine
end

