-- ==== Sys2Proof/Machine/Launch.lean ====
section
/-! DEFINITION. How a run starts, for every value of the parameters, and the launch premises
(spec/70_reset_and_hazards.md R200 - R203, R218). -/

namespace Sys2Proof.Machine

/-- Reset for any `GLYPH_ROM`, any `STACK_DEPTH` and either choice of the host: memory lists nothing, so the glyph
region reads as the parameter's bytes and every other byte as `MEM_INIT` (R37, R200). `State.reset` is the case of
the default parameters. -/
def State.resetWith (prm : Params) : State := { State.reset with params := prm }

/-- Start-up: reset, then the load; the next step is the first (R203). -/
def launch (prm : Params) (p : List Byte) : Outcome := loadProgram p (State.resetWith prm)

/-! ### The premises of R218, each about the state at the first step -/

/-- `Launch.glyphs(g)`: memory 0x000 .. 0x04F holds the parameter `GLYPH_ROM`. -/
abbrev Launch.glyphs (g : GlyphRom) (s : State) : Prop := ∀ k : Fin 80, s.byte k = g[k]

/-- `Launch.reset_sourced`: what the document itself gives, for the glyphs `g`. -/
abbrev Launch.resetSourced (g : GlyphRom) (s : State) : Prop :=
  (∀ r, s.reg r = 0) ∧ s.pc = 0x200 ∧ Launch.glyphs g s

/-- The stack is empty: apart from the sourced premises, since it is decision D11 (log entry 11). -/
abbrev Launch.emptyStack (s : State) : Prop := s.stack = []

/-- The values of `I`, `DT`, `ST`, `FB` and `acc` that are decision D11 (log entry 11). -/
abbrev Launch.resetChosen (s : State) : Prop :=
  s.I = 0 ∧ s.dt = 0 ∧ s.st = 0 ∧ (∀ cx cy, s.fb.pixel cx cy = false) ∧ s.acc = 0

/-- `Launch.reset`: the state of R200, for the glyphs `g`. -/
abbrev Launch.reset (g : GlyphRom) (s : State) : Prop :=
  Launch.resetSourced g s ∧ Launch.emptyStack s ∧ Launch.resetChosen s

/-- `Launch.loaded(p)`: the program fits and stands at 0x200 (R202). -/
abbrev Launch.loaded (p : List Byte) (s : State) : Prop :=
  p.length ≤ progMax ∧ ∀ (k : Nat) (h : k < p.length), s.byte (progBase + k) = p[k]

/-- `Launch.mem_init(m)`: every byte that is neither glyph nor program holds the unspecified `m`. -/
abbrev Launch.memInit (p : List Byte) (m : Nat → Byte) (s : State) : Prop :=
  ∀ a, 80 ≤ a → a ≤ 0xFFF → a < progBase ∨ progBase + p.length ≤ a → s.byte a = m a

/-- `Launch.no_fault`: no fault is recorded and the last report is code 0. -/
abbrev Launch.noFault (s : State) : Prop := s.faulted = false ∧ s.report = .clear

/-- `Launch.stack_depth(d)`: the value of `STACK_DEPTH`. -/
abbrev Launch.stackDepth (d : Option Nat) (s : State) : Prop := s.params.stackDepth = d

/-- All the launch premises of R218, over the program, the glyphs, the unspecified memory and the bound of the stack.
The inputs and the tick schedule are not among them: they are free at every step (R206). -/
abbrev Launch.premises (p : List Byte) (g : GlyphRom) (m : Nat → Byte) (d : Option Nat) (s : State) : Prop :=
  Launch.reset g s ∧ Launch.loaded p s ∧ Launch.memInit p m s ∧ Launch.noFault s ∧ Launch.stackDepth d s

end Sys2Proof.Machine
end

