-- ==== Sys2Proof/Safety.lean ====
section
/-! DEFINITION. What the statements speak of: the invariant of the machine, the end of a run, what "only pc has
moved" means, and the tables of the spec that say which instruction may write, read or raise what. The tables
are copied from the spec's own (spec/10_state.md R21 - R30, spec/60_exceptions.md R179), not computed from the
meanings. -/

namespace Sys2Proof.Machine

/-! ### The invariant -/

/-- The call stack is within its bound, where it has one (R28). -/
def State.stackWithinBound (s : State) : Bool :=
  match s.params.stackDepth with
  | none   => true
  | some d => decide (s.stack.length ≤ d)

/-- What every reachable state satisfies: memory in its canonical form, `I` at most 4095 (R23), pc at most
0x10FE (R24), every stacked return address at most 0x1000 (R102), the stack within its bound (R28). -/
abbrev State.Inv (s : State) : Prop :=
  Memory.wf s.params.glyphRom s.mem = true ∧ s.I.toNat ≤ 4095 ∧ s.pc.toNat ≤ 0x10FE ∧
    (s.stack.all fun a => decide (a.toNat ≤ 0x1000)) = true ∧ s.stackWithinBound = true

/-! ### The end of a run -/

/-- The recommended `END_OF_RUN`: no fault is recorded and the word at pc is a jump to pc (R209). -/
def State.final (s : State) : Bool :=
  !s.faulted && decide (s.pc.toNat ≤ 0xFFE) &&
    decide (decodeWord (s.wordAt s.pc.toNat) = some (.jp (s.pc.setWidth 12)))

/-! ### Faults -/

/-- Every piece of the CORE's state but pc is the same (R180). The report, the fault mark and the host's inputs
are not the CORE's state. -/
abbrev State.SameButPc (s t : State) : Prop :=
  t.v = s.v ∧ t.I = s.I ∧ t.stack = s.stack ∧ t.dt = s.dt ∧ t.st = s.st ∧ t.fb = s.fb ∧ t.mem = s.mem ∧
    t.acc = s.acc ∧ t.params = s.params

/-- The code of a fault (R178). -/
def Fault.code : Fault → ErrorCode
  | .stackUnderflow _ _     => .stackUnderflow
  | .memOutOfRange _ _      => .memOutOfRange
  | .fetchOutOfRange _ _    => .fetchOutOfRange
  | .reservedOpcode _ _     => .reservedOpcode
  | .keyIndexOutOfRange _ _ => .keyIndexOutOfRange
  | .stackOverflow _ _      => .stackOverflow

/-- The value a fault reports (R178). -/
def Fault.value : Fault → Nat
  | .stackUnderflow n _ | .memOutOfRange n _ | .fetchOutOfRange n _ | .reservedOpcode n _
  | .keyIndexOutOfRange n _ | .stackOverflow n _ => n

/-- The one kind of report an instruction can raise, `none` for those that raise nothing (R179). -/
def mayRaise : Instr → ErrorCode
  | .ret _                                              => .stackUnderflow
  | .call _                                             => .stackOverflow
  | .addI _                                             => .addressOverflow
  | .drw _ _ _ | .ldB _ | .storeRegs _ | .loadRegs _    => .memOutOfRange
  | .skp _ | .sknp _                                    => .keyIndexOutOfRange
  | .cls _ | .jp _ | .seByte _ _ | .sneByte _ _ | .seReg _ _ _ | .ldByte _ _ | .addByte _ _ | .ldReg _ _
  | .orReg _ _ | .andReg _ _ | .xorReg _ _ | .addReg _ _ | .subReg _ _ | .shl _ _ | .subnReg _ _ | .shr _ _
  | .sneReg _ _ _ | .ldI _ | .jpV0 _ | .rnd _ _ | .ldVxDT _ | .ldVxK _ | .ldDTVx _ | .ldSTVx _
  | .ldF _                                              => .none

/-! ### Who writes what -/

/-- The general registers an instruction may write: the columns "w" of the table of R22. -/
def writesReg : Instr → Reg → Bool
  | .cls _, _ | .ret _, _ | .jp _, _ | .call _, _ | .ldI _, _ | .jpV0 _, _ | .seByte _ _, _
  | .sneByte _ _, _ | .seReg _ _ _, _ | .sneReg _ _ _, _ | .skp _, _ | .sknp _, _ | .ldDTVx _, _
  | .ldSTVx _, _ | .ldF _, _ | .ldB _, _ | .storeRegs _, _ => false
  | .ldByte x _, r | .addByte x _, r | .ldReg x _, r | .orReg x _, r | .andReg x _, r | .xorReg x _, r
  | .rnd x _, r | .ldVxDT x, r | .ldVxK x, r => r == x
  | .addReg x _, r | .subReg x _, r | .subnReg x _, r | .shl x _, r | .shr x _, r => r == x || r == 0xF
  | .drw _ _ _, r | .addI _, r => r == 0xF
  | .loadRegs x, r => decide (r ≤ x)

/-- ANNN, FX1E and FX29 write `I`, no other (R23). -/
def writesI : Instr → Bool
  | .ldI _ | .addI _ | .ldF _ => true
  | _ => false

/-- 2NNN pushes and 00EE pops, no other touches the stack (R27). -/
def writesStack : Instr → Bool
  | .call _ | .ret _ => true
  | _ => false

/-- FX15 writes `DT` (R29; PRESUMED by the spec itself, general knowledge G2, log entry 20, unsafe). -/
def writesDT : Instr → Bool
  | .ldDTVx _ => true
  | _ => false

/-- FX18 writes `ST` (R29; PRESUMED by the spec itself, general knowledge G2, log entry 20, unsafe). -/
def writesST : Instr → Bool
  | .ldSTVx _ => true
  | _ => false

/-- 00E0 and DXYN write the framebuffer (R30). -/
def writesFb : Instr → Bool
  | .cls _ | .drw _ _ _ => true
  | _ => false

/-- The bytes an instruction stores to, from the state it runs in: FX33 three, FX55 X + 1 from `I` on, no other
instruction stores (R51). -/
def storesTo : Instr → State → Nat → Prop
  | .ldB _, s, a       => s.effective 0 ≤ a ∧ a ≤ s.effective 2
  | .storeRegs x, s, a => s.effective 0 ≤ a ∧ a ≤ s.effective x
  | _, _, _            => False

/-- The instructions that do not just go on to the next one, the rows of the table of R25 but its last. -/
def movesPc : Instr → Bool
  | .jp _ | .call _ | .jpV0 _ | .ret _ | .seByte _ _ | .sneByte _ _ | .seReg _ _ _ | .sneReg _ _ _
  | .skp _ | .sknp _ | .ldVxK _ => true
  | _ => false

/-- EX9E, EXA1 and FX0A read the key inputs (R33). -/
def readsKeys : Instr → Bool
  | .skp _ | .sknp _ | .ldVxK _ => true
  | _ => false

/-- CXNN consumes the random byte (R34). -/
def readsRnd : Instr → Bool
  | .rnd _ _ => true
  | _ => false

/-- FX07 reads `DT` (R29; PRESUMED by the spec itself, general knowledge G2, log entry 20, unsafe). -/
def readsDT : Instr → Bool
  | .ldVxDT _ => true
  | _ => false

/-! ### Comparing two runs -/

/-- Change the state an outcome holds. -/
def mapState (f : State → State) : Outcome → Outcome
  | .next s                       => .next (f s)
  | .fault (.stackUnderflow n s)  => .fault (.stackUnderflow n (f s))
  | .fault (.memOutOfRange n s)   => .fault (.memOutOfRange n (f s))
  | .fault (.fetchOutOfRange n s) => .fault (.fetchOutOfRange n (f s))
  | .fault (.reservedOpcode n s)  => .fault (.reservedOpcode n (f s))
  | .fault (.keyIndexOutOfRange n s) => .fault (.keyIndexOutOfRange n (f s))
  | .fault (.stackOverflow n s)   => .fault (.stackOverflow n (f s))
  | .refused r                    => .refused r

/-! ### Sprites -/

/-- The sprite's bit on pixel (cx, cy), for the sprite at `I` with this origin and this many rows: the most
significant bit on the origin's column, the first byte on the origin's row, 8 columns wide (R142, R143). -/
def spriteBit (s : State) (ox oy rows cx cy : Nat) : Bool :=
  decide (oy ≤ cy ∧ cy < oy + rows ∧ ox ≤ cx ∧ cx < ox + 8) &&
    (s.byte (s.I.toNat + (cy - oy))).getLsbD (7 - (cx - ox))

end Sys2Proof.Machine
end

