-- ==== Sys2Proof/Certificates/Slice0/Obligations.lean ====
section
/-! DEFINITION. The statements for the provers. Each docstring names the rule it rests on; where a clause rests on
a decision the spec marks as its own, or on a choice of the model, it says so. -/

open Sys2Proof Sys2Proof.Machine

/-! ### Encoding (spec/30_encoding.md) -/

/-- R72: the six fields, as numbers, on the two bytes and on the word they make. -/
def Obligations.FieldsAreTheBitsOfTheWord : Prop :=
  (∀ b0 b1 : Byte,
    (fieldsOf (wordOfBytes b0 b1)).ir.toNat = b0.toNat / 16 ∧
    (fieldsOf (wordOfBytes b0 b1)).x.toNat = b0.toNat % 16 ∧
    (fieldsOf (wordOfBytes b0 b1)).y.toNat = b1.toNat / 16 ∧
    (fieldsOf (wordOfBytes b0 b1)).n.toNat = b1.toNat % 16 ∧
    (fieldsOf (wordOfBytes b0 b1)).nn = b1 ∧
    (fieldsOf (wordOfBytes b0 b1)).nnn.toNat = b0.toNat % 16 * 256 + b1.toNat) ∧
  ∀ op : Word,
    (fieldsOf op).ir.toNat = op.toNat / 4096 ∧
    (fieldsOf op).x.toNat = op.toNat / 256 % 16 ∧
    (fieldsOf op).y.toNat = op.toNat / 16 % 16 ∧
    (fieldsOf op).n.toNat = op.toNat % 16 ∧
    (fieldsOf op).nn.toNat = (fieldsOf op).y.toNat * 16 + (fieldsOf op).n.toNat ∧
    (fieldsOf op).nnn.toNat = (fieldsOf op).x.toNat * 256 + (fieldsOf op).nn.toNat

/-- Every instruction is read back from its word, canonical or not (the unchecked nibbles: the spec's decision D5, log
entry 14). -/
def Obligations.DecodeOfEncodeIsTheInstruction : Prop :=
  ∀ i : Instr, decodeWord (encode i) = some i

/-- Every word the decoder accepts is the word of what it reads: no bit is dropped or read as another. The
unchecked nibbles are the spec's decision D5 (log entry 14). -/
def Obligations.EncodeOfDecodeIsTheWord : Prop :=
  ∀ (op : Word) (i : Instr), decodeWord op = some i → encode i = op

/-- The two-level decoder of R75 and the match/mask table of R76 are the same map: the decoder answers an
instruction of the one row that selects the word, and refuses a word exactly when no row selects it; no two rows
overlap. The nibbles the masks leave out are the spec's decision D5 (log entry 14). -/
def Obligations.DecoderAgreesWithTheOpcodeMap : Prop :=
  (∀ (op : Word) (i : Instr), decodeWord op = some i →
    ∀ k r, opcodeMap[k]? = some r → (r.selects op = true ↔ k = i.rowIndex)) ∧
  (∀ op : Word, decodeWord op = none ↔ ∀ r ∈ opcodeMap, r.selects op = false) ∧
  opcodeMap.Pairwise fun r q => ∀ op : Word, ¬(r.selects op = true ∧ q.selects op = true)

/-- The table of R78: which words are reserved. That X of 0XE0 and 0XEE and N of 5XYN and 9XYN do not matter is the spec's
decision D5 (log entry 14). -/
def Obligations.ReservedWordsAreThoseOfTheTable : Prop :=
  ∀ op : Word, decodeWord op = none ↔
    ((fieldsOf op).ir = 0x0 ∧ (fieldsOf op).nn ∉ ([0xE0, 0xEE] : List Byte)) ∨
    ((fieldsOf op).ir = 0x8 ∧ (fieldsOf op).n ∈ ([0x8, 0x9, 0xA, 0xB, 0xC, 0xD, 0xF] : List Nibble)) ∨
    ((fieldsOf op).ir = 0xE ∧ (fieldsOf op).nn ∉ ([0x9E, 0xA1] : List Byte)) ∨
    ((fieldsOf op).ir = 0xF ∧
      (fieldsOf op).nn ∉ ([0x07, 0x0A, 0x15, 0x18, 0x1E, 0x29, 0x33, 0x55, 0x65] : List Byte))

/-- The words of spec/95_test_vectors.md 2.1 that decode, and three of its reserved ones. `0x07E0` and `0x5127` rest on
the spec's decision D5 (log entry 14). -/
def Obligations.WordsOfTheVectorsDecode : Prop :=
  ([0x6005, 0x8AB4, 0xD125, 0xF31E, 0x00E0, 0x07E0, 0x5127, 0x0000, 0x8128, 0xF075] : List Word).map decodeWord =
    [some (.ldByte 0x0 0x05), some (.addReg 0xA 0xB), some (.drw 0x1 0x2 0x5), some (.addI 0x3), some (.cls 0x0),
     some (.cls 0x7), some (.seReg 0x1 0x2 0x7), none, none, none]

/-- R77 (the spec's decision D5, log entry 14) and the ignored Y of R118, R120: such a nibble takes every value and
has no effect. -/
def Obligations.UncheckedNibblesHaveNoEffect : Prop :=
  (∀ (x : Nibble) (s : State), decodeWord (packXNN 0x0 x 0xE0) = some (.cls x) ∧ exec (.cls x) s = exec (.cls 0) s) ∧
  (∀ (x : Nibble) (s : State), decodeWord (packXNN 0x0 x 0xEE) = some (.ret x) ∧ exec (.ret x) s = exec (.ret 0) s) ∧
  (∀ (x y : Reg) (n : Nibble) (s : State),
    decodeWord (packXYN 0x5 (nibbleOf x) (nibbleOf y) n) = some (.seReg x y n) ∧
    exec (.seReg x y n) s = exec (.seReg x y 0) s) ∧
  (∀ (x y : Reg) (n : Nibble) (s : State),
    decodeWord (packXYN 0x9 (nibbleOf x) (nibbleOf y) n) = some (.sneReg x y n) ∧
    exec (.sneReg x y n) s = exec (.sneReg x y 0) s) ∧
  (∀ (x y : Reg) (s : State), decodeWord (packXYN 0x8 (nibbleOf x) (nibbleOf y) 0x6) = some (.shl x y) ∧
    exec (.shl x y) s = exec (.shl x 0) s) ∧
  (∀ (x y : Reg) (s : State), decodeWord (packXYN 0x8 (nibbleOf x) (nibbleOf y) 0xE) = some (.shr x y) ∧
    exec (.shr x y) s = exec (.shr x 0) s)

/-! ### The step (spec/30_encoding.md R70 - R73, spec/70_reset_and_hazards.md R205) -/

/-- R70, R73, R205: when the two bytes at pc decode, the step polls, puts pc past the word, runs exactly that
instruction, and on a next state lets the divider accrue. That a step is one whole host iteration is the model's choice
(log entry 1). -/
def Obligations.StepRunsTheDecodedInstruction : Prop :=
  ∀ (s : State) (i : Instr), s.pc.toNat ≤ 0xFFE →
    decodeWord (wordOfBytes (s.byte s.pc.toNat) (s.byte (s.pc.toNat + 1))) = some i →
    (∀ t, exec i (s.poll.setPc (s.pc + 2)) = .next t → step s = .next t.accrue) ∧
    (∀ f, exec i (s.poll.setPc (s.pc + 2)) = .fault f → step s = .fault f) ∧
    (∀ r, exec i (s.poll.setPc (s.pc + 2)) = .refused r → step s = .refused r)

/-- R33, R205: the poll takes the next input laid down, else free ones (the model's own fields, log entry 2), and touches
nothing else but the report of the step before: that the poll is what sets it to code 0 is the model's choice (log entry
8), where R178 says only that the next step's report replaces it. -/
def Obligations.PollChangesTheInputsAndTheReport : Prop :=
  (∀ (s : State) (h : HostInput) (rest : List HostInput), s.pending = h :: rest →
    s.poll = { s with report := ⟨.none, 0⟩, input := h, pending := rest, iteration := s.iteration + 1 }) ∧
  (∀ s : State, s.pending = [] →
    s.poll = { s with report := ⟨.none, 0⟩, input := Config.hostInput s.iteration, iteration := s.iteration + 1 })

/-- R26, R174 (the spec's decision D1, log entry 1): a step that begins with pc above 0xFFE faults and changes
nothing, not even pc. -/
def Obligations.FetchAboveMemoryFaults : Prop :=
  ∀ s : State, 0xFFE < s.pc.toNat →
    ∃ left, step s = .fault (.fetchOutOfRange s.pc.toNat left) ∧ s.SameButPc left ∧ left.pc = s.pc ∧
      left.report = ⟨.fetchOutOfRange, s.pc.toNat⟩ ∧ left.faulted = true

/-- R79, R175 (the spec's decision D4, log entry 22): a reserved word faults after the advance of pc, and nothing else
has changed. -/
def Obligations.ReservedWordFaultsAfterTheAdvance : Prop :=
  ∀ s : State, s.pc.toNat ≤ 0xFFE → decodeWord (s.wordAt s.pc.toNat) = none →
    ∃ left, step s = .fault (.reservedOpcode (s.wordAt s.pc.toNat).toNat left) ∧ s.SameButPc left ∧
      left.pc = s.pc + 2 ∧ left.report = ⟨.reservedOpcode, (s.wordAt s.pc.toNat).toNat⟩ ∧ left.faulted = true

/-- The host's way to place an instruction: stored at pc, it is the very instruction the next step fetches, decodes and
runs; every other byte is as it was. -/
def Obligations.StoredWordIsTheNextInstruction : Prop :=
  ∀ (s : State) (i : Instr), s.pc.toNat ≤ 0xFFE →
    fetchDecode (s.withFetchWord 16 (encode i).toNat).poll =
      .ok (i, (s.withFetchWord 16 (encode i).toNat).poll.setPc (s.pc + 2)) ∧
    ∀ a, a ≠ s.pc.toNat → a ≠ s.pc.toNat + 1 → (s.withFetchWord 16 (encode i).toNat).byte a = s.byte a

/-- R62: what FX55 stores is seen at once by the fetch of the next instruction: the word at an address inside the block is
made of the two registers stored there. The block is X + 1 bytes from I, X included: decision D21 (log entry 19). -/
def Obligations.StoredRegistersAreFetched : Prop :=
  ∀ (s t : State) (x : Reg) (k : Nat) (hk : k + 1 ≤ x.val), exec (.storeRegs x) s = .next t →
    t.wordAt (s.I.toNat + k) =
      wordOfBytes (s.reg ⟨k, by omega⟩) (s.reg ⟨k + 1, by omega⟩)

/-! ### Reset and load (spec/70_reset_and_hazards.md, spec/10_state.md R37) -/

/-- R37, R200, for every value of the parameters (GLYPH_ROM, STACK_DEPTH, the host's choice): the values after reset.
Registers, pc and the placement of glyphs are the document's; I, the stack, the timers, the framebuffer and acc are the
spec's decision D11 (log entry 11), and every byte that is no glyph is the free value MEM_INIT (log entry 9). The
machine's own reset is the case of the default parameters: the spec's default glyph table (PRESUMED, log entry 10), no
bound of the stack, a host that halts (log entries 5 and 6). -/
def Obligations.ResetValues : Prop :=
  (∀ prm : Params,
    (∀ r : Reg, (State.resetWith prm).reg r = 0) ∧ (State.resetWith prm).pc = 0x200 ∧ (State.resetWith prm).I = 0 ∧
    (State.resetWith prm).stack = [] ∧ (State.resetWith prm).dt = 0 ∧ (State.resetWith prm).st = 0 ∧
    (State.resetWith prm).acc = 0 ∧ (∀ cx cy, (State.resetWith prm).fb.pixel cx cy = false) ∧
    (∀ (a : Nat) (h : a < 80), (State.resetWith prm).byte a = prm.glyphRom[a]'h) ∧
    (∀ a : Nat, 80 ≤ a → (State.resetWith prm).byte a = Config.memInit a) ∧
    (State.resetWith prm).report = ⟨.none, 0⟩ ∧ (State.resetWith prm).faulted = false ∧
    (State.resetWith prm).params = prm) ∧
  State.reset = State.resetWith State.reset.params ∧ State.reset.params.glyphRom = defaultGlyphRom ∧
  State.reset.params.stackDepth = none ∧ State.reset.params.continueAfterUnderflow = false

/-- R202: the program's bytes are copied verbatim from 0x200 on and nothing else changes; a program of more than 3584
bytes is refused whole (the spec's decision D17, log entry 29). R203, R218: reset and load leave every launch premise, for
every program that fits, every GLYPH_ROM and every STACK_DEPTH (decisions D11, D12, D13; log entries 9, 10, 11). -/
def Obligations.LoadCopiesTheProgram : Prop :=
  (∀ (p : List Byte) (s : State), p.length ≤ 3584 →
    ∃ t, loadProgram p s = .next t ∧ t = { s with mem := t.mem } ∧
      (∀ (k : Nat) (h : k < p.length), t.byte (0x200 + k) = p[k]) ∧
      ∀ a, a < 0x200 ∨ 0x200 + p.length ≤ a → t.byte a = s.byte a) ∧
  (∀ (p : List Byte) (s : State), 3584 < p.length → loadProgram p s = .refused (.programTooLarge p.length)) ∧
  ∀ (prm : Params) (p : List Byte),
    (p.length ≤ 3584 → ∃ t, launch prm p = .next t ∧ t.params = prm ∧
      Launch.premises p prm.glyphRom Config.memInit prm.stackDepth t) ∧
    (3584 < p.length → launch prm p = .refused (.programTooLarge p.length))

/-! ### Control transfer (spec/40_control_flow.md) -/

/-- R101. -/
def Obligations.JumpSetsPc : Prop :=
  ∀ (nnn : Addr) (s : State), decodeWord (packNNN 0x1 nnn) = some (.jp nnn) ∧
    ∃ t, exec (.jp nnn) s = .next t ∧ t.pc.toNat = nnn.toNat ∧ t = { s with pc := t.pc }

/-- R102 below the bound (the parameter STACK_DEPTH is the spec's decision D2, log entry 5): the address of the
following instruction is pushed and pc is NNN. -/
def Obligations.CallPushesTheReturnAddress : Prop :=
  ∀ (nnn : Addr) (s : State), (∀ d, s.params.stackDepth = some d → s.stack.length ≠ d) →
    ∃ t, exec (.call nnn) s = .next t ∧ t.stack = s.pc :: s.stack ∧ t.pc.toNat = nnn.toNat ∧
      t = { s with pc := t.pc, stack := t.stack }

/-- R177 (the spec's decision D2, log entry 5): at the bound CALL faults, pushes nothing and reports its own address, two
below pc. -/
def Obligations.CallAtTheBoundFaults : Prop :=
  ∀ (nnn : Addr) (s : State) (d : Nat), s.params.stackDepth = some d → s.stack.length = d →
    ∃ left, exec (.call nnn) s = .fault (.stackOverflow (s.pc - 2).toNat left) ∧ s.SameButPc left ∧
      left.pc = s.pc ∧ left.report = ⟨.stackOverflow, (s.pc - 2).toNat⟩ ∧ left.faulted = true

/-- R100 with an entry on the stack: the newest entry goes to pc as it is, the older ones stay. Any X: the
spec's decision D5 (log entry 14). -/
def Obligations.ReturnPopsTheNewestEntry : Prop :=
  ∀ (x : Nibble) (s : State) (a : Word) (rest : List Word), s.stack = a :: rest →
    exec (.ret x) s = .next { s with pc := a, stack := rest }

/-- R100, R170, R181 with an empty stack: nothing changes (pc has been advanced) and StackUnderflow is reported with the
address of the RET; the host halts, a fault, or goes on (its choice is a field of the model, log entry 6). The value
reported is decision D15 (log entry 28); any X is decision D5 (log entry 14). -/
def Obligations.ReturnOnEmptyStackUnderflows : Prop :=
  ∀ (x : Nibble) (s : State), s.stack = [] →
    (s.params.continueAfterUnderflow = false →
      ∃ left, exec (.ret x) s = .fault (.stackUnderflow (s.pc - 2).toNat left) ∧ s.SameButPc left ∧
        left.pc = s.pc ∧ left.report = ⟨.stackUnderflow, (s.pc - 2).toNat⟩ ∧ left.faulted = true) ∧
    (s.params.continueAfterUnderflow = true →
      exec (.ret x) s = .next { s with report := ⟨.stackUnderflow, (s.pc - 2).toNat⟩, faulted := true })

/-- The document's call/return scenario (E8): whatever pc is when the RET runs, it undoes the CALL. Any
X of the RET: the spec's decision D5 (log entry 14). -/
def Obligations.ReturnUndoesCall : Prop :=
  ∀ (nnn : Addr) (x : Nibble) (s t : State) (p : Word), exec (.call nnn) s = .next t →
    exec (.ret x) (t.setPc p) = .next s

/-- R103, R104. -/
def Obligations.SkipsOnImmediate : Prop :=
  ∀ (x : Reg) (nn : Byte) (s : State),
    decodeWord (packXNN 0x3 (nibbleOf x) nn) = some (.seByte x nn) ∧
    decodeWord (packXNN 0x4 (nibbleOf x) nn) = some (.sneByte x nn) ∧
    exec (.seByte x nn) s = .next { s with pc := if s.reg x = nn then s.pc + 2 else s.pc } ∧
    exec (.sneByte x nn) s = .next { s with pc := if s.reg x = nn then s.pc else s.pc + 2 }

/-- R105, R106, and their corner X = Y: 5XX0 always skips, 9XX0 never does. The ignored N is R77's (decision D5, log
entry 14). -/
def Obligations.SkipsOnRegisters : Prop :=
  ∀ (x y : Reg) (n : Nibble) (s : State),
    decodeWord (packXYN 0x5 (nibbleOf x) (nibbleOf y) n) = some (.seReg x y n) ∧
    decodeWord (packXYN 0x9 (nibbleOf x) (nibbleOf y) n) = some (.sneReg x y n) ∧
    exec (.seReg x y n) s = .next { s with pc := if s.reg x = s.reg y then s.pc + 2 else s.pc } ∧
    exec (.sneReg x y n) s = .next { s with pc := if s.reg x = s.reg y then s.pc else s.pc + 2 } ∧
    exec (.seReg x x n) s = .next { s with pc := s.pc + 2 } ∧ exec (.sneReg x x n) s = .next s

/-- R107: the sum of V0 and NNN as a number, not reduced modulo 4096 (the spec's decision D1, log entry 1). -/
def Obligations.JumpWithOffsetIsNotReduced : Prop :=
  ∀ (nnn : Addr) (s : State),
    ∃ t, exec (.jpV0 nnn) s = .next t ∧ t.pc.toNat = (s.reg 0).toNat + nnn.toNat ∧ t = { s with pc := t.pc }

/-! ### Registers (spec/41_alu.md) -/

/-- R110. -/
def Obligations.LoadImmediate : Prop :=
  ∀ (x : Reg) (nn : Byte) (s : State), decodeWord (packXNN 0x6 (nibbleOf x) nn) = some (.ldByte x nn) ∧
    ∃ t, exec (.ldByte x nn) s = .next t ∧ t.reg x = nn ∧ (∀ r, r ≠ x → t.reg r = s.reg r) ∧ t = { s with v := t.v }

/-- R111: modulo 256. That it writes no flag is the spec's decision D25 (log entry 19). -/
def Obligations.AddImmediateWraps : Prop :=
  ∀ (x : Reg) (nn : Byte) (s : State), decodeWord (packXNN 0x7 (nibbleOf x) nn) = some (.addByte x nn) ∧
    ∃ t, exec (.addByte x nn) s = .next t ∧ (t.reg x).toNat = ((s.reg x).toNat + nn.toNat) % 256 ∧
      (∀ r, r ≠ x → t.reg r = s.reg r) ∧ t = { s with v := t.v }

/-- R112 - R115, bit by bit; Vy unchanged unless it is Vx. That they write no flag is the spec's decision D25 (log
entry 19). -/
def Obligations.MoveAndLogic : Prop :=
  ∀ (x y : Reg) (s : State),
    (decodeWord (packXYN 0x8 (nibbleOf x) (nibbleOf y) 0x0) = some (.ldReg x y) ∧
      ∃ t, exec (.ldReg x y) s = .next t ∧ t.reg x = s.reg y ∧ (∀ r, r ≠ x → t.reg r = s.reg r) ∧
        t = { s with v := t.v }) ∧
    (decodeWord (packXYN 0x8 (nibbleOf x) (nibbleOf y) 0x1) = some (.orReg x y) ∧
      ∃ t, exec (.orReg x y) s = .next t ∧
        (∀ k, (t.reg x).getLsbD k = ((s.reg x).getLsbD k || (s.reg y).getLsbD k)) ∧
        (∀ r, r ≠ x → t.reg r = s.reg r) ∧ t = { s with v := t.v }) ∧
    (decodeWord (packXYN 0x8 (nibbleOf x) (nibbleOf y) 0x2) = some (.andReg x y) ∧
      ∃ t, exec (.andReg x y) s = .next t ∧
        (∀ k, (t.reg x).getLsbD k = ((s.reg x).getLsbD k && (s.reg y).getLsbD k)) ∧
        (∀ r, r ≠ x → t.reg r = s.reg r) ∧ t = { s with v := t.v }) ∧
    (decodeWord (packXYN 0x8 (nibbleOf x) (nibbleOf y) 0x3) = some (.xorReg x y) ∧
      ∃ t, exec (.xorReg x y) s = .next t ∧
        (∀ k, (t.reg x).getLsbD k = ((s.reg x).getLsbD k ^^ (s.reg y).getLsbD k)) ∧
        (∀ r, r ≠ x → t.reg r = s.reg r) ∧ t = { s with v := t.v })

/-- R116, every form: the sum modulo 256 in Vx, then VF is the carry. With X = 0xF only the carry is left, which is the
spec's decision D6 (log entry 15). -/
def Obligations.AddRegistersSetsCarry : Prop :=
  ∀ (x y : Reg) (s : State), ∃ t, exec (.addReg x y) s = .next t ∧
    t.reg VF = (if 255 < (s.reg x).toNat + (s.reg y).toNat then 1 else 0) ∧
    (x ≠ VF → (t.reg x).toNat = ((s.reg x).toNat + (s.reg y).toNat) % 256) ∧
    (∀ r, r ≠ x → r ≠ VF → t.reg r = s.reg r) ∧ t = { s with v := t.v }

/-- R117, R119, every form: the strict flag is written first, and the difference modulo 256 is of the registers as they
then are. What X = 0xF or Y = 0xF gives is the spec's decision D6 (log entry 15). -/
def Obligations.SubtractionsSetStrictFlag : Prop :=
  ∀ (x y : Reg) (s : State),
    (∃ t, exec (.subReg x y) s = .next t ∧
      (∀ f : Byte, f = (if (s.reg y).toNat < (s.reg x).toNat then 1 else 0) →
        (x ≠ VF → t.reg VF = f) ∧
        (t.reg x).toNat = ((if x = VF then f else s.reg x).toNat + 256 - (if y = VF then f else s.reg y).toNat) % 256) ∧
      (∀ r, r ≠ x → r ≠ VF → t.reg r = s.reg r) ∧ t = { s with v := t.v }) ∧
    (∃ t, exec (.subnReg x y) s = .next t ∧
      (∀ f : Byte, f = (if (s.reg x).toNat < (s.reg y).toNat then 1 else 0) →
        (x ≠ VF → t.reg VF = f) ∧
        (t.reg x).toNat = ((if y = VF then f else s.reg y).toNat + 256 - (if x = VF then f else s.reg x).toNat) % 256) ∧
      (∀ r, r ≠ x → r ≠ VF → t.reg r = s.reg r) ∧ t = { s with v := t.v })

/-- R118, R120, every form: 8XY6 shifts LEFT and VF is the old bit 7, 8XYE shifts RIGHT and VF is the old bit 0, each as
the number 0 or 1 (decision D7); with X = 0xF the flag is shifted, 2 * b and 0 (decision D6; log entry 15). -/
def Obligations.ShiftsByOnePosition : Prop :=
  ∀ (x y : Reg) (s : State),
    (∃ t, exec (.shl x y) s = .next t ∧
      (x ≠ VF → (t.reg x).toNat = 2 * (s.reg x).toNat % 256 ∧ (t.reg VF).toNat = (s.reg x).toNat / 128) ∧
      (x = VF → (t.reg VF).toNat = 2 * ((s.reg VF).toNat / 128)) ∧
      (∀ r, r ≠ x → r ≠ VF → t.reg r = s.reg r) ∧ t = { s with v := t.v }) ∧
    (∃ t, exec (.shr x y) s = .next t ∧
      (x ≠ VF → (t.reg x).toNat = (s.reg x).toNat / 2 ∧ (t.reg VF).toNat = (s.reg x).toNat % 2) ∧
      (x = VF → (t.reg VF).toNat = 0) ∧
      (∀ r, r ≠ x → r ≠ VF → t.reg r = s.reg r) ∧ t = { s with v := t.v })

/-- R121, for every value of the random byte (a free input, log entry 4): its bits where NN has them. -/
def Obligations.RandomByteIsMasked : Prop :=
  ∀ (x : Reg) (nn : Byte) (s : State), decodeWord (packXNN 0xC (nibbleOf x) nn) = some (.rnd x nn) ∧
    ∃ t, exec (.rnd x nn) s = .next t ∧
      (∀ k, (t.reg x).getLsbD k = (s.input.rnd.getLsbD k && nn.getLsbD k)) ∧
      (nn = 0 → t.reg x = 0) ∧ (nn = 0xFF → t.reg x = s.input.rnd) ∧
      (∀ r, r ≠ x → t.reg r = s.reg r) ∧ t = { s with v := t.v }

/-! ### The address register and memory (spec/42_memory_index.md) -/

/-- R130. -/
def Obligations.LoadAddressRegister : Prop :=
  ∀ (nnn : Addr) (s : State), decodeWord (packNNN 0xA nnn) = some (.ldI nnn) ∧
    ∃ t, exec (.ldI nnn) s = .next t ∧ t.I.toNat = nnn.toNat ∧ t = { s with I := t.I }

/-- R131, X = 0xF included: the sum is of the values before any write. That the overflow is a status, with no fault mark,
after which the machine goes on is the spec's decision D16 (log entry 28). -/
def Obligations.AddToAddressRegisterWraps : Prop :=
  ∀ (x : Reg) (s : State), decodeWord (packXNN 0xF (nibbleOf x) 0x1E) = some (.addI x) ∧
    ∃ t, exec (.addI x) s = .next t ∧
      t.I.toNat = (s.I.toNat + (s.reg x).toNat) % 4096 ∧
      t.reg VF = (if 4096 ≤ s.I.toNat + (s.reg x).toNat then 1 else 0) ∧
      (4096 ≤ s.I.toNat + (s.reg x).toNat → t.report.code = .addressOverflow) ∧
      (s.I.toNat + (s.reg x).toNat < 4096 → t.report = s.report) ∧
      (∀ r, r ≠ VF → t.reg r = s.reg r) ∧ t = { s with v := t.v, I := t.I, report := t.report }

/-- R132. -/
def Obligations.GlyphAddressIsFiveTimesTheLowNibble : Prop :=
  ∀ (x : Reg) (s : State), decodeWord (packXNN 0xF (nibbleOf x) 0x29) = some (.ldF x) ∧
    ∃ t, exec (.ldF x) s = .next t ∧ t.I.toNat = (s.reg x).toNat % 16 * 5 ∧ t = { s with I := t.I }

/-- R133 inside memory: three digits, most significant at the lowest address, and every other byte as it was. That the
range is checked first is the spec's decision D3 (log entry 16). -/
def Obligations.DecimalDigitsAreStored : Prop :=
  ∀ (x : Reg) (s : State), s.I.toNat + 2 ≤ 0xFFF →
    ∃ t, exec (.ldB x) s = .next t ∧
      (t.byte s.I.toNat).toNat = (s.reg x).toNat / 100 ∧
      (t.byte (s.I.toNat + 1)).toNat = (s.reg x).toNat / 10 % 10 ∧
      (t.byte (s.I.toNat + 2)).toNat = (s.reg x).toNat % 10 ∧
      (∀ a, a < s.I.toNat ∨ s.I.toNat + 2 < a → t.byte a = s.byte a) ∧ t = { s with mem := t.mem }

/-- R134 inside memory: registers 0 to X, X included (decision D21, log entry 19), each at I plus its number; I
unchanged. -/
def Obligations.RegistersAreStored : Prop :=
  ∀ (x : Reg) (s : State), s.I.toNat + x.val ≤ 0xFFF →
    ∃ t, exec (.storeRegs x) s = .next t ∧
      (∀ r : Reg, r ≤ x → t.byte (s.I.toNat + r.val) = s.reg r) ∧
      (∀ a, a < s.I.toNat ∨ s.I.toNat + x.val < a → t.byte a = s.byte a) ∧ t = { s with mem := t.mem }

/-- R135 inside memory: registers 0 to X, X included (decision D21, log entry 19); the others, I and memory unchanged. -/
def Obligations.RegistersAreLoaded : Prop :=
  ∀ (x : Reg) (s : State), s.I.toNat + x.val ≤ 0xFFF →
    ∃ t, exec (.loadRegs x) s = .next t ∧
      (∀ r : Reg, r ≤ x → t.reg r = s.byte (s.I.toNat + r.val)) ∧
      (∀ r : Reg, x < r → t.reg r = s.reg r) ∧ t = { s with v := t.v }

/-- R134, R135 together: loading what was just stored changes nothing. That both move X + 1 bytes, X included, and leave I
where it is is the spec's decisions D21 and D25 and its general knowledge G6 (log entry 19): with an I that moves it would
be false. -/
def Obligations.LoadAfterStoreIsIdentity : Prop :=
  ∀ (x : Reg) (s t : State), exec (.storeRegs x) s = .next t → exec (.loadRegs x) t = .next t

/-- R173 (the spec's decision D3, log entry 16): an instruction whose highest data address is above 0xFFF faults with
that address and has changed nothing but pc. DXYN counts the rows that are not clipped (decision D22, log entry 21),
FX55 and FX65 take X in (decision D21, log entry 19). -/
def Obligations.AccessAboveMemoryFaults : Prop :=
  ∀ (s : State) (i : Instr) (highest : Nat), 0xFFF < highest →
    ((∃ x, i = .ldB x ∧ highest = s.I.toNat + 2) ∨ (∃ x, i = .storeRegs x ∧ highest = s.I.toNat + x.val) ∨
      (∃ x, i = .loadRegs x ∧ highest = s.I.toNat + x.val) ∨
      (∃ x y n rows, i = .drw x y n ∧ rows = min n.toNat (32 - (s.reg y).toNat % 32) ∧ 0 < rows ∧
        highest = s.I.toNat + rows - 1)) →
    ∃ left, exec i s = .fault (.memOutOfRange highest left) ∧ s.SameButPc left ∧ left.pc = s.pc ∧
      left.report = ⟨.memOutOfRange, highest⟩ ∧ left.faulted = true

/-! ### Display (spec/43_display.md) -/

/-- R140, and the document's property that a second clear changes nothing. Any X: the spec's decision D5 (log entry 14).
-/
def Obligations.ClearTurnsEveryPixelOff : Prop :=
  ∀ (x : Nibble) (s : State), decodeWord (packXNN 0x0 x 0xE0) = some (.cls x) ∧
    ∃ t, exec (.cls x) s = .next t ∧ (∀ cx cy, t.fb.pixel cx cy = false) ∧ t = { s with fb := t.fb } ∧
      exec (.cls x) t = .next t

/-- R141, R142, R144: when every drawn row is inside memory, each pixel becomes its XOR with the sprite's bit there, and
VF is 1 exactly when some lit pixel was turned off. Origin before the reset of VF, clipped rows not read: the spec's
decision D22 (log entry 21). -/
def Obligations.DrawIsPixelwiseXor : Prop :=
  ∀ (x y : Reg) (n : Nibble) (s : State) (ox oy rows : Nat),
    ox = (s.reg x).toNat % 64 → oy = (s.reg y).toNat % 32 → rows = min n.toNat (32 - oy) →
    (rows = 0 ∨ s.I.toNat + rows - 1 ≤ 0xFFF) →
    ∃ t, exec (.drw x y n) s = .next t ∧
      (∀ (cx : Fin 64) (cy : Fin 32), t.fb.pixel cx cy = (s.fb.pixel cx cy ^^ spriteBit s ox oy rows cx cy)) ∧
      ((t.reg VF = 1 ∧ ∃ cx cy, s.fb.pixel cx cy = true ∧ spriteBit s ox oy rows cx.val cy.val = true) ∨
        (t.reg VF = 0 ∧ ∀ cx cy, s.fb.pixel cx cy = true → spriteBit s ox oy rows cx.val cy.val = false)) ∧
      (∀ r, r ≠ VF → t.reg r = s.reg r) ∧ t = { s with v := t.v, fb := t.fb }

/-- R146: the same sprite drawn twice restores the framebuffer, and the second draw's VF is 1 exactly when some sprite
bit fell on a pixel that was off before the first. Clipped rows take no part (decision D22, log entry 21). X and Y are
not 0xF, whose register the first draw writes. -/
def Obligations.DrawingTwiceRestores : Prop :=
  ∀ (x y : Reg) (n : Nibble) (s t u : State) (ox oy rows : Nat), x ≠ VF → y ≠ VF →
    ox = (s.reg x).toNat % 64 → oy = (s.reg y).toNat % 32 → rows = min n.toNat (32 - oy) →
    exec (.drw x y n) s = .next t → exec (.drw x y n) t = .next u →
    (∀ cx cy, u.fb.pixel cx cy = s.fb.pixel cx cy) ∧
    ((u.reg VF = 1 ∧ ∃ cx cy, s.fb.pixel cx cy = false ∧ spriteBit s ox oy rows cx.val cy.val = true) ∨
      (u.reg VF = 0 ∧ ∀ cx cy, s.fb.pixel cx cy = false → spriteBit s ox oy rows cx.val cy.val = false))

/-- R188 (layout: the spec's decision D23, log entry 28): the snapshot shows every pixel in its place. -/
def Obligations.SnapshotShowsEveryPixel : Prop :=
  ∀ (s : State) (cx : Fin 64) (cy : Fin 32), s.snapshot.getLsbD (cy.val * 64 + cx.val) = s.fb.pixel cx cy

/-! ### Keypad and timers (spec/44_keypad.md, spec/45_timers.md, spec/60_exceptions.md) -/

/-- R150, R151 for a key number, 0 to 15. -/
def Obligations.KeySkips : Prop :=
  ∀ (x : Reg) (s : State), (s.reg x).toNat ≤ 15 →
    exec (.skp x) s =
      .next { s with pc := if s.input.keyDown.getLsbD (s.reg x).toNat = true then s.pc + 2 else s.pc } ∧
    exec (.sknp x) s =
      .next { s with pc := if s.input.keyDown.getLsbD (s.reg x).toNat = true then s.pc else s.pc + 2 }

/-- R176 (the spec's decision D8, log entry 17): above 15 both fault, and nothing but pc has changed. -/
def Obligations.KeyNumberAboveFifteenFaults : Prop :=
  ∀ (x : Reg) (s : State), 15 < (s.reg x).toNat →
    ∃ left, exec (.skp x) s = .fault (.keyIndexOutOfRange (s.reg x).toNat left) ∧
      exec (.sknp x) s = .fault (.keyIndexOutOfRange (s.reg x).toNat left) ∧ s.SameButPc left ∧ left.pc = s.pc ∧
      left.report = ⟨.keyIndexOutOfRange, (s.reg x).toNat⟩ ∧ left.faulted = true

/-- R152: with a key down, Vx is the last pressed key (decision D9, log entry 18); with none, pc goes back by 2 and
nothing else changes. -/
def Obligations.WaitForKey : Prop :=
  ∀ (x : Reg) (s : State),
    ((∃ k < 16, s.input.keyDown.getLsbD k = true) →
      ∃ t, exec (.ldVxK x) s = .next t ∧ (t.reg x).toNat = s.input.lastKey.toNat ∧
        (∀ r, r ≠ x → t.reg r = s.reg r) ∧ t = { s with v := t.v }) ∧
    ((∀ k < 16, s.input.keyDown.getLsbD k = false) → exec (.ldVxK x) s = .next { s with pc := s.pc - 2 })

/-- R161 - R163. Which code does what is the spec's general knowledge (R160, G2; log entry 20). -/
def Obligations.TimerAccess : Prop :=
  ∀ (x : Reg) (s : State),
    (∃ t, exec (.ldVxDT x) s = .next t ∧ t.reg x = s.dt ∧ (∀ r, r ≠ x → t.reg r = s.reg r) ∧ t = { s with v := t.v }) ∧
    exec (.ldDTVx x) s = .next { s with dt := s.reg x } ∧ exec (.ldSTVx x) s = .next { s with st := s.reg x }

/-- R183. -/
def Obligations.TickDecrementsNonzeroCounters : Prop :=
  ∀ s : State,
    (0 < s.dt.toNat → s.tick.dt.toNat = s.dt.toNat - 1) ∧ (s.dt.toNat = 0 → s.tick.dt.toNat = 0) ∧
    (0 < s.st.toNat → s.tick.st.toNat = s.st.toNat - 1) ∧ (s.st.toNat = 0 → s.tick.st.toNat = 0) ∧
    s.tick = { s with dt := s.tick.dt, st := s.tick.st }

/-- The document's timer property (E9) for every number of ticks: each counter is down by that number, and stays at 0. -/
def Obligations.TicksCountDownToZero : Prop :=
  ∀ (n : Nat) (s : State),
    (State.tick^[n] s).dt.toNat = s.dt.toNat - n ∧ (State.tick^[n] s).st.toNat = s.st.toNat - n ∧
    State.tick^[n] s = { s with dt := (State.tick^[n] s).dt, st := (State.tick^[n] s).st }

/-- R184 - R186 (the remainder is the spec's decision D14, log entry 13): over any iterations, the ticks and what is left
in acc account for the time that passed; and when no iteration is longer than one period, acc never exceeds one. -/
def Obligations.DividerAccountsForTheTime : Prop :=
  ∀ (hs : List HostInput) (s : State),
    (∃ k ≤ hs.length, ((hs.foldl (fun t h => (t.setInput h).accrue) s).dt.toNat = s.dt.toNat - k ∧
        (hs.foldl (fun t h => (t.setInput h).accrue) s).st.toNat = s.st.toNat - k ∧
        k * tickPeriod + (hs.foldl (fun t h => (t.setInput h).accrue) s).acc =
          s.acc + (hs.map HostInput.elapsed).sum)) ∧
    (s.acc ≤ tickPeriod → (∀ h ∈ hs, h.elapsed ≤ tickPeriod) →
      (hs.foldl (fun t h => (t.setInput h).accrue) s).acc ≤ tickPeriod)

/-! ### Frames: what an instruction leaves unchanged -/

/-- The table of R22: an instruction that gives a next state has written no general register but those its row marks "w"
(that it writes only what its row names is the spec's decision D25, log entry 19; the rows of FX07, FX15 and FX18 rest on
the pairing of general knowledge G2, log entry 20). -/
def Obligations.OnlyTheNamedRegistersAreWritten : Prop :=
  ∀ (i : Instr) (s t : State), exec i s = .next t → ∀ r, writesReg i r = false → t.reg r = s.reg r

/-- R51, R55: for every address outside the bytes an instruction stores to, the byte reads after as before. FX33 stores
three bytes from I, FX55 X + 1, no other instruction stores; the addresses are those of the state it runs in. That FX55
stores X + 1 bytes, X included, is the spec's decision D21 (log entry 19). -/
def Obligations.OnlyTheStoredBytesChange : Prop :=
  ∀ (i : Instr) (s t : State), exec i s = .next t → ∀ a, ¬storesTo i s a → t.byte a = s.byte a

/-- R23, R27, R29, R30, R33, R35, R36: I, the stack, each counter and the framebuffer are written by the named
instructions only; acc, the inputs and the parameters by none. That FX15 is the one that writes DT and FX18 the one that
writes ST is the spec's general knowledge (R160, G2; log entry 20), as R29 itself says; that an instruction writes only
what its row names is its decision D25 (log entry 19). -/
def Obligations.SpecialStateIsWrittenByItsOwnersOnly : Prop :=
  ∀ (i : Instr) (s t : State), exec i s = .next t →
    (writesI i = false → t.I = s.I) ∧ (writesStack i = false → t.stack = s.stack) ∧
    (writesDT i = false → t.dt = s.dt) ∧ (writesST i = false → t.st = s.st) ∧ (writesFb i = false → t.fb = s.fb) ∧
    t.acc = s.acc ∧ t.input = s.input ∧ t.pending = s.pending ∧ t.iteration = s.iteration ∧ t.params = s.params

/-- The table of R25, with `s.pc` the address of the following instruction: where each instruction leaves pc. RET with an
empty stack leaves it there (R100). -/
def Obligations.PcAfterEachInstruction : Prop :=
  ∀ (i : Instr) (s t : State), exec i s = .next t →
    (movesPc i = false → t.pc = s.pc) ∧
    (∀ nnn, i = .jp nnn ∨ i = .call nnn → t.pc.toNat = nnn.toNat) ∧
    (∀ nnn, i = .jpV0 nnn → t.pc.toNat = (s.reg 0).toNat + nnn.toNat) ∧
    (∀ x, i = .ret x → t.pc = s.stack.headD s.pc) ∧
    (∀ x nn, i = .seByte x nn → t.pc = if s.reg x = nn then s.pc + 2 else s.pc) ∧
    (∀ x nn, i = .sneByte x nn → t.pc = if s.reg x ≠ nn then s.pc + 2 else s.pc) ∧
    (∀ x y n, i = .seReg x y n → t.pc = if s.reg x = s.reg y then s.pc + 2 else s.pc) ∧
    (∀ x y n, i = .sneReg x y n → t.pc = if s.reg x ≠ s.reg y then s.pc + 2 else s.pc) ∧
    (∀ x, i = .skp x → t.pc = if s.keyDown (s.reg x).toNat = true then s.pc + 2 else s.pc) ∧
    (∀ x, i = .sknp x → t.pc = if s.keyDown (s.reg x).toNat = false then s.pc + 2 else s.pc) ∧
    (∀ x, i = .ldVxK x → t.pc = if s.anyKeyDown = true then s.pc else s.pc - 2)

/-! ### The whole machine -/

/-- R37: the invariant holds after reset, for every value of the parameters (I and the stack: the spec's decision D11,
log entry 11). -/
def Obligations.InvariantAfterReset : Prop := State.reset.Inv ∧ ∀ prm : Params, (State.resetWith prm).Inv

/-- R23, R24, R28 and the canonical form of memory: every step keeps the invariant, from every state that meets it. -/
def Obligations.StepKeepsTheInvariant : Prop :=
  ∀ s t : State, s.Inv → step s = .next t → t.Inv

/-- R181 (decision D15, log entries 6 and 8), R39: no step clears the fault mark or changes a
parameter, and a step marks a fault only as it goes on after a StackUnderflow. -/
def Obligations.FaultMarkIsSticky : Prop :=
  ∀ s t : State, step s = .next t →
    t.params = s.params ∧ (s.faulted = true → t.faulted = true) ∧
    (s.faulted = false → t.faulted = true → t.report.code = .stackUnderflow ∧ s.params.continueAfterUnderflow = true)

/-- R178 - R180, R171: a fault of an instruction is of its one kind, and its state is the one the instruction ran in
with report and mark; a next state's report is new only for AddressOverflow (with the unreduced sum, the spec's decision
D16, log entry 28) and for a StackUnderflow the host goes on after (its choice: log entry 6; the value: decision D15,
log entry 28); no instruction is refused. -/
def Obligations.ReportsAreExact : Prop :=
  ∀ (i : Instr) (s : State),
    (∀ f, exec i s = .fault f → f.code = mayRaise i ∧ f.left = s.markFault f.code f.value) ∧
    (∀ t, exec i s = .next t → t.report = s.report ∨
      (∃ x, i = .addI x ∧ t.report = ⟨.addressOverflow, s.I.toNat + (s.reg x).toNat⟩ ∧ t.faulted = s.faulted) ∨
      (∃ x, i = .ret x ∧ s.stack = [] ∧ t.report = ⟨.stackUnderflow, (s.pc - 2).toNat⟩ ∧ t.faulted = true)) ∧
    ∀ r, exec i s ≠ .refused r

/-- R29, R33, R34 (noninterference, for the two counters, the random byte, the elapsed time and the key inputs): no
instruction can tell one value of the sound counter from another, none but FX07 one value of the delay counter, none but
EX9E, EXA1 and FX0A the key inputs, none but CXNN the random byte. That FX07 reads DT, FX15 writes DT, FX18 writes ST
and nothing reads ST is the spec's general knowledge (R160, G2; log entry 20), as R29 itself says. -/
def Obligations.UnreadStateDoesNotInterfere : Prop :=
  ∀ (i : Instr) (s : State),
    (∀ b, writesST i = false → exec i (s.setST b) = mapState (fun t => t.setST b) (exec i s)) ∧
    (∀ b, writesST i = true → exec i (s.setST b) = exec i s) ∧
    (∀ b, readsDT i = false → writesDT i = false → exec i (s.setDT b) = mapState (fun t => t.setDT b) (exec i s)) ∧
    (∀ b, writesDT i = true → exec i (s.setDT b) = exec i s) ∧
    (∀ b e, readsRnd i = false →
      exec i (s.setInput { s.input with rnd := b, elapsed := e }) =
        mapState (fun t => t.setInput { s.input with rnd := b, elapsed := e }) (exec i s)) ∧
    (∀ k l, readsKeys i = false →
      exec i (s.setInput { s.input with keyDown := k, lastKey := l }) =
        mapState (fun t => t.setInput { s.input with keyDown := k, lastKey := l }) (exec i s))

/-- R209 (the predicate is the one the spec recommends, its decision D20): in a final state every step leaves
pc, registers, I, memory, stack and framebuffer as they are, the state stays final, and DT and ST can only fall. -/
def Obligations.FinalStateStays : Prop :=
  ∀ s : State, s.final = true →
    ∃ t, step s = .next t ∧ t.final = true ∧ t.pc = s.pc ∧ t.v = s.v ∧ t.I = s.I ∧ t.mem = s.mem ∧
      t.params = s.params ∧ t.stack = s.stack ∧ t.fb = s.fb ∧ t.dt.toNat ≤ s.dt.toNat ∧ t.st.toNat ≤ s.st.toNat
end

