-- ==== Sys2Proof/Laws/Decode.lean ====
section
/-! SUPPORT. Words and fields as numbers: what the fields of a packed word are, and what a word's fields are. -/

namespace Sys2Proof

/-- Concatenation puts its left part in the more significant position (R8). -/
theorem toNat_concat {n m : Nat} (a : BitVec n) (b : BitVec m) :
    (a ++ b).toNat = a.toNat * 2 ^ m + b.toNat := by
  rw [BitVec.toNat_append, ← Nat.shiftLeft_add_eq_or_of_lt b.isLt, Nat.shiftLeft_eq]

theorem toNat_packXYN (ir x y n : Nibble) :
    (packXYN ir x y n).toNat = ir.toNat * 4096 + x.toNat * 256 + y.toNat * 16 + n.toNat := by
  simp only [packXYN, toNat_concat]; omega

theorem toNat_packXNN (ir x : Nibble) (nn : Byte) :
    (packXNN ir x nn).toNat = ir.toNat * 4096 + x.toNat * 256 + nn.toNat := by
  simp only [packXNN, toNat_concat]; omega

theorem toNat_packNNN (ir : Nibble) (nnn : Addr) :
    (packNNN ir nnn).toNat = ir.toNat * 4096 + nnn.toNat := by
  simp only [packNNN, toNat_concat, Nat.reducePow]

theorem toNat_slice (op : Word) (lo len : Nat) :
    (op.extractLsb' lo len).toNat = op.toNat / 2 ^ lo % 2 ^ len := by
  rw [BitVec.extractLsb'_toNat, Nat.shiftRight_eq_div_pow]

theorem fieldsOf_packXYN (ir x y n : Nibble) :
    fieldsOf (packXYN ir x y n) = ⟨ir, x, y, n, y ++ n, x ++ y ++ n⟩ := by
  have := ir.isLt; have := x.isLt; have := y.isLt; have := n.isLt
  simp only [fieldsOf, Fields.mk.injEq, ← BitVec.toNat_inj, toNat_slice, toNat_packXYN, toNat_concat]
  omega

theorem fieldsOf_packXNN (ir x : Nibble) (nn : Byte) :
    fieldsOf (packXNN ir x nn) = ⟨ir, x, nn.extractLsb' 4 4, nn.extractLsb' 0 4, nn, x ++ nn⟩ := by
  have := ir.isLt; have := x.isLt; have := nn.isLt
  simp only [fieldsOf, Fields.mk.injEq, ← BitVec.toNat_inj, toNat_slice, toNat_packXNN, toNat_concat,
    BitVec.extractLsb'_toNat, Nat.shiftRight_eq_div_pow]
  omega

theorem fieldsOf_packNNN (ir : Nibble) (nnn : Addr) :
    fieldsOf (packNNN ir nnn) =
      ⟨ir, nnn.extractLsb' 8 4, nnn.extractLsb' 4 4, nnn.extractLsb' 0 4, nnn.extractLsb' 0 8, nnn⟩ := by
  have := ir.isLt; have := nnn.isLt
  simp only [fieldsOf, Fields.mk.injEq, ← BitVec.toNat_inj, toNat_slice, toNat_packNNN,
    BitVec.extractLsb'_toNat, Nat.shiftRight_eq_div_pow]
  omega

@[simp] theorem regOf_nibbleOf (r : Reg) : regOf (nibbleOf r) = r := rfl

@[simp] theorem nibbleOf_regOf (b : Nibble) : nibbleOf (regOf b) = b := rfl

/-- The word of two bytes as a number (R52). -/
theorem toNat_wordOfBytes (b0 b1 : Byte) :
    (wordOfBytes b0 b1).toNat = b0.toNat * 256 + b1.toNat := by
  simp only [wordOfBytes, toNat_concat, Nat.reducePow]

end Sys2Proof
end

