-- ==== Sys2Proof/Laws/State.lean ====
section
/-! SUPPORT. One lemma per field per update of the state, so that no later proof unfolds a record update. -/

namespace Sys2Proof.Machine

/-! ### setReg -/

@[simp] theorem State.setReg_v (s : State) (x : Reg) (b : Byte) :
    (s.setReg x b).v = s.v.set x b := rfl
@[simp] theorem State.setReg_I (s : State) (x : Reg) (b : Byte) :
    (s.setReg x b).I = s.I := rfl
@[simp] theorem State.setReg_pc (s : State) (x : Reg) (b : Byte) :
    (s.setReg x b).pc = s.pc := rfl
@[simp] theorem State.setReg_stack (s : State) (x : Reg) (b : Byte) :
    (s.setReg x b).stack = s.stack := rfl
@[simp] theorem State.setReg_dt (s : State) (x : Reg) (b : Byte) :
    (s.setReg x b).dt = s.dt := rfl
@[simp] theorem State.setReg_st (s : State) (x : Reg) (b : Byte) :
    (s.setReg x b).st = s.st := rfl
@[simp] theorem State.setReg_fb (s : State) (x : Reg) (b : Byte) :
    (s.setReg x b).fb = s.fb := rfl
@[simp] theorem State.setReg_mem (s : State) (x : Reg) (b : Byte) :
    (s.setReg x b).mem = s.mem := rfl
@[simp] theorem State.setReg_acc (s : State) (x : Reg) (b : Byte) :
    (s.setReg x b).acc = s.acc := rfl
@[simp] theorem State.setReg_report (s : State) (x : Reg) (b : Byte) :
    (s.setReg x b).report = s.report := rfl
@[simp] theorem State.setReg_faulted (s : State) (x : Reg) (b : Byte) :
    (s.setReg x b).faulted = s.faulted := rfl
@[simp] theorem State.setReg_input (s : State) (x : Reg) (b : Byte) :
    (s.setReg x b).input = s.input := rfl
@[simp] theorem State.setReg_pending (s : State) (x : Reg) (b : Byte) :
    (s.setReg x b).pending = s.pending := rfl
@[simp] theorem State.setReg_iteration (s : State) (x : Reg) (b : Byte) :
    (s.setReg x b).iteration = s.iteration := rfl
@[simp] theorem State.setReg_params (s : State) (x : Reg) (b : Byte) :
    (s.setReg x b).params = s.params := rfl

/-! ### setI -/

@[simp] theorem State.setI_v (s : State) (w : Word) :
    (s.setI w).v = s.v := rfl
@[simp] theorem State.setI_I (s : State) (w : Word) :
    (s.setI w).I = w := rfl
@[simp] theorem State.setI_pc (s : State) (w : Word) :
    (s.setI w).pc = s.pc := rfl
@[simp] theorem State.setI_stack (s : State) (w : Word) :
    (s.setI w).stack = s.stack := rfl
@[simp] theorem State.setI_dt (s : State) (w : Word) :
    (s.setI w).dt = s.dt := rfl
@[simp] theorem State.setI_st (s : State) (w : Word) :
    (s.setI w).st = s.st := rfl
@[simp] theorem State.setI_fb (s : State) (w : Word) :
    (s.setI w).fb = s.fb := rfl
@[simp] theorem State.setI_mem (s : State) (w : Word) :
    (s.setI w).mem = s.mem := rfl
@[simp] theorem State.setI_acc (s : State) (w : Word) :
    (s.setI w).acc = s.acc := rfl
@[simp] theorem State.setI_report (s : State) (w : Word) :
    (s.setI w).report = s.report := rfl
@[simp] theorem State.setI_faulted (s : State) (w : Word) :
    (s.setI w).faulted = s.faulted := rfl
@[simp] theorem State.setI_input (s : State) (w : Word) :
    (s.setI w).input = s.input := rfl
@[simp] theorem State.setI_pending (s : State) (w : Word) :
    (s.setI w).pending = s.pending := rfl
@[simp] theorem State.setI_iteration (s : State) (w : Word) :
    (s.setI w).iteration = s.iteration := rfl
@[simp] theorem State.setI_params (s : State) (w : Word) :
    (s.setI w).params = s.params := rfl

/-! ### setPc -/

@[simp] theorem State.setPc_v (s : State) (w : Word) :
    (s.setPc w).v = s.v := rfl
@[simp] theorem State.setPc_I (s : State) (w : Word) :
    (s.setPc w).I = s.I := rfl
@[simp] theorem State.setPc_pc (s : State) (w : Word) :
    (s.setPc w).pc = w := rfl
@[simp] theorem State.setPc_stack (s : State) (w : Word) :
    (s.setPc w).stack = s.stack := rfl
@[simp] theorem State.setPc_dt (s : State) (w : Word) :
    (s.setPc w).dt = s.dt := rfl
@[simp] theorem State.setPc_st (s : State) (w : Word) :
    (s.setPc w).st = s.st := rfl
@[simp] theorem State.setPc_fb (s : State) (w : Word) :
    (s.setPc w).fb = s.fb := rfl
@[simp] theorem State.setPc_mem (s : State) (w : Word) :
    (s.setPc w).mem = s.mem := rfl
@[simp] theorem State.setPc_acc (s : State) (w : Word) :
    (s.setPc w).acc = s.acc := rfl
@[simp] theorem State.setPc_report (s : State) (w : Word) :
    (s.setPc w).report = s.report := rfl
@[simp] theorem State.setPc_faulted (s : State) (w : Word) :
    (s.setPc w).faulted = s.faulted := rfl
@[simp] theorem State.setPc_input (s : State) (w : Word) :
    (s.setPc w).input = s.input := rfl
@[simp] theorem State.setPc_pending (s : State) (w : Word) :
    (s.setPc w).pending = s.pending := rfl
@[simp] theorem State.setPc_iteration (s : State) (w : Word) :
    (s.setPc w).iteration = s.iteration := rfl
@[simp] theorem State.setPc_params (s : State) (w : Word) :
    (s.setPc w).params = s.params := rfl

/-! ### setStack -/

@[simp] theorem State.setStack_v (s : State) (l : List Word) :
    (s.setStack l).v = s.v := rfl
@[simp] theorem State.setStack_I (s : State) (l : List Word) :
    (s.setStack l).I = s.I := rfl
@[simp] theorem State.setStack_pc (s : State) (l : List Word) :
    (s.setStack l).pc = s.pc := rfl
@[simp] theorem State.setStack_stack (s : State) (l : List Word) :
    (s.setStack l).stack = l := rfl
@[simp] theorem State.setStack_dt (s : State) (l : List Word) :
    (s.setStack l).dt = s.dt := rfl
@[simp] theorem State.setStack_st (s : State) (l : List Word) :
    (s.setStack l).st = s.st := rfl
@[simp] theorem State.setStack_fb (s : State) (l : List Word) :
    (s.setStack l).fb = s.fb := rfl
@[simp] theorem State.setStack_mem (s : State) (l : List Word) :
    (s.setStack l).mem = s.mem := rfl
@[simp] theorem State.setStack_acc (s : State) (l : List Word) :
    (s.setStack l).acc = s.acc := rfl
@[simp] theorem State.setStack_report (s : State) (l : List Word) :
    (s.setStack l).report = s.report := rfl
@[simp] theorem State.setStack_faulted (s : State) (l : List Word) :
    (s.setStack l).faulted = s.faulted := rfl
@[simp] theorem State.setStack_input (s : State) (l : List Word) :
    (s.setStack l).input = s.input := rfl
@[simp] theorem State.setStack_pending (s : State) (l : List Word) :
    (s.setStack l).pending = s.pending := rfl
@[simp] theorem State.setStack_iteration (s : State) (l : List Word) :
    (s.setStack l).iteration = s.iteration := rfl
@[simp] theorem State.setStack_params (s : State) (l : List Word) :
    (s.setStack l).params = s.params := rfl

/-! ### setDT -/

@[simp] theorem State.setDT_v (s : State) (b : Byte) :
    (s.setDT b).v = s.v := rfl
@[simp] theorem State.setDT_I (s : State) (b : Byte) :
    (s.setDT b).I = s.I := rfl
@[simp] theorem State.setDT_pc (s : State) (b : Byte) :
    (s.setDT b).pc = s.pc := rfl
@[simp] theorem State.setDT_stack (s : State) (b : Byte) :
    (s.setDT b).stack = s.stack := rfl
@[simp] theorem State.setDT_dt (s : State) (b : Byte) :
    (s.setDT b).dt = b := rfl
@[simp] theorem State.setDT_st (s : State) (b : Byte) :
    (s.setDT b).st = s.st := rfl
@[simp] theorem State.setDT_fb (s : State) (b : Byte) :
    (s.setDT b).fb = s.fb := rfl
@[simp] theorem State.setDT_mem (s : State) (b : Byte) :
    (s.setDT b).mem = s.mem := rfl
@[simp] theorem State.setDT_acc (s : State) (b : Byte) :
    (s.setDT b).acc = s.acc := rfl
@[simp] theorem State.setDT_report (s : State) (b : Byte) :
    (s.setDT b).report = s.report := rfl
@[simp] theorem State.setDT_faulted (s : State) (b : Byte) :
    (s.setDT b).faulted = s.faulted := rfl
@[simp] theorem State.setDT_input (s : State) (b : Byte) :
    (s.setDT b).input = s.input := rfl
@[simp] theorem State.setDT_pending (s : State) (b : Byte) :
    (s.setDT b).pending = s.pending := rfl
@[simp] theorem State.setDT_iteration (s : State) (b : Byte) :
    (s.setDT b).iteration = s.iteration := rfl
@[simp] theorem State.setDT_params (s : State) (b : Byte) :
    (s.setDT b).params = s.params := rfl

/-! ### setST -/

@[simp] theorem State.setST_v (s : State) (b : Byte) :
    (s.setST b).v = s.v := rfl
@[simp] theorem State.setST_I (s : State) (b : Byte) :
    (s.setST b).I = s.I := rfl
@[simp] theorem State.setST_pc (s : State) (b : Byte) :
    (s.setST b).pc = s.pc := rfl
@[simp] theorem State.setST_stack (s : State) (b : Byte) :
    (s.setST b).stack = s.stack := rfl
@[simp] theorem State.setST_dt (s : State) (b : Byte) :
    (s.setST b).dt = s.dt := rfl
@[simp] theorem State.setST_st (s : State) (b : Byte) :
    (s.setST b).st = b := rfl
@[simp] theorem State.setST_fb (s : State) (b : Byte) :
    (s.setST b).fb = s.fb := rfl
@[simp] theorem State.setST_mem (s : State) (b : Byte) :
    (s.setST b).mem = s.mem := rfl
@[simp] theorem State.setST_acc (s : State) (b : Byte) :
    (s.setST b).acc = s.acc := rfl
@[simp] theorem State.setST_report (s : State) (b : Byte) :
    (s.setST b).report = s.report := rfl
@[simp] theorem State.setST_faulted (s : State) (b : Byte) :
    (s.setST b).faulted = s.faulted := rfl
@[simp] theorem State.setST_input (s : State) (b : Byte) :
    (s.setST b).input = s.input := rfl
@[simp] theorem State.setST_pending (s : State) (b : Byte) :
    (s.setST b).pending = s.pending := rfl
@[simp] theorem State.setST_iteration (s : State) (b : Byte) :
    (s.setST b).iteration = s.iteration := rfl
@[simp] theorem State.setST_params (s : State) (b : Byte) :
    (s.setST b).params = s.params := rfl

/-! ### setFb -/

@[simp] theorem State.setFb_v (s : State) (f : Framebuffer) :
    (s.setFb f).v = s.v := rfl
@[simp] theorem State.setFb_I (s : State) (f : Framebuffer) :
    (s.setFb f).I = s.I := rfl
@[simp] theorem State.setFb_pc (s : State) (f : Framebuffer) :
    (s.setFb f).pc = s.pc := rfl
@[simp] theorem State.setFb_stack (s : State) (f : Framebuffer) :
    (s.setFb f).stack = s.stack := rfl
@[simp] theorem State.setFb_dt (s : State) (f : Framebuffer) :
    (s.setFb f).dt = s.dt := rfl
@[simp] theorem State.setFb_st (s : State) (f : Framebuffer) :
    (s.setFb f).st = s.st := rfl
@[simp] theorem State.setFb_fb (s : State) (f : Framebuffer) :
    (s.setFb f).fb = f := rfl
@[simp] theorem State.setFb_mem (s : State) (f : Framebuffer) :
    (s.setFb f).mem = s.mem := rfl
@[simp] theorem State.setFb_acc (s : State) (f : Framebuffer) :
    (s.setFb f).acc = s.acc := rfl
@[simp] theorem State.setFb_report (s : State) (f : Framebuffer) :
    (s.setFb f).report = s.report := rfl
@[simp] theorem State.setFb_faulted (s : State) (f : Framebuffer) :
    (s.setFb f).faulted = s.faulted := rfl
@[simp] theorem State.setFb_input (s : State) (f : Framebuffer) :
    (s.setFb f).input = s.input := rfl
@[simp] theorem State.setFb_pending (s : State) (f : Framebuffer) :
    (s.setFb f).pending = s.pending := rfl
@[simp] theorem State.setFb_iteration (s : State) (f : Framebuffer) :
    (s.setFb f).iteration = s.iteration := rfl
@[simp] theorem State.setFb_params (s : State) (f : Framebuffer) :
    (s.setFb f).params = s.params := rfl

/-! ### setMem -/

@[simp] theorem State.setMem_v (s : State) (m : Memory) :
    (s.setMem m).v = s.v := rfl
@[simp] theorem State.setMem_I (s : State) (m : Memory) :
    (s.setMem m).I = s.I := rfl
@[simp] theorem State.setMem_pc (s : State) (m : Memory) :
    (s.setMem m).pc = s.pc := rfl
@[simp] theorem State.setMem_stack (s : State) (m : Memory) :
    (s.setMem m).stack = s.stack := rfl
@[simp] theorem State.setMem_dt (s : State) (m : Memory) :
    (s.setMem m).dt = s.dt := rfl
@[simp] theorem State.setMem_st (s : State) (m : Memory) :
    (s.setMem m).st = s.st := rfl
@[simp] theorem State.setMem_fb (s : State) (m : Memory) :
    (s.setMem m).fb = s.fb := rfl
@[simp] theorem State.setMem_mem (s : State) (m : Memory) :
    (s.setMem m).mem = m := rfl
@[simp] theorem State.setMem_acc (s : State) (m : Memory) :
    (s.setMem m).acc = s.acc := rfl
@[simp] theorem State.setMem_report (s : State) (m : Memory) :
    (s.setMem m).report = s.report := rfl
@[simp] theorem State.setMem_faulted (s : State) (m : Memory) :
    (s.setMem m).faulted = s.faulted := rfl
@[simp] theorem State.setMem_input (s : State) (m : Memory) :
    (s.setMem m).input = s.input := rfl
@[simp] theorem State.setMem_pending (s : State) (m : Memory) :
    (s.setMem m).pending = s.pending := rfl
@[simp] theorem State.setMem_iteration (s : State) (m : Memory) :
    (s.setMem m).iteration = s.iteration := rfl
@[simp] theorem State.setMem_params (s : State) (m : Memory) :
    (s.setMem m).params = s.params := rfl

/-! ### setAcc -/

@[simp] theorem State.setAcc_v (s : State) (t : Nat) :
    (s.setAcc t).v = s.v := rfl
@[simp] theorem State.setAcc_I (s : State) (t : Nat) :
    (s.setAcc t).I = s.I := rfl
@[simp] theorem State.setAcc_pc (s : State) (t : Nat) :
    (s.setAcc t).pc = s.pc := rfl
@[simp] theorem State.setAcc_stack (s : State) (t : Nat) :
    (s.setAcc t).stack = s.stack := rfl
@[simp] theorem State.setAcc_dt (s : State) (t : Nat) :
    (s.setAcc t).dt = s.dt := rfl
@[simp] theorem State.setAcc_st (s : State) (t : Nat) :
    (s.setAcc t).st = s.st := rfl
@[simp] theorem State.setAcc_fb (s : State) (t : Nat) :
    (s.setAcc t).fb = s.fb := rfl
@[simp] theorem State.setAcc_mem (s : State) (t : Nat) :
    (s.setAcc t).mem = s.mem := rfl
@[simp] theorem State.setAcc_acc (s : State) (t : Nat) :
    (s.setAcc t).acc = t := rfl
@[simp] theorem State.setAcc_report (s : State) (t : Nat) :
    (s.setAcc t).report = s.report := rfl
@[simp] theorem State.setAcc_faulted (s : State) (t : Nat) :
    (s.setAcc t).faulted = s.faulted := rfl
@[simp] theorem State.setAcc_input (s : State) (t : Nat) :
    (s.setAcc t).input = s.input := rfl
@[simp] theorem State.setAcc_pending (s : State) (t : Nat) :
    (s.setAcc t).pending = s.pending := rfl
@[simp] theorem State.setAcc_iteration (s : State) (t : Nat) :
    (s.setAcc t).iteration = s.iteration := rfl
@[simp] theorem State.setAcc_params (s : State) (t : Nat) :
    (s.setAcc t).params = s.params := rfl

/-! ### setReport -/

@[simp] theorem State.setReport_v (s : State) (r : Report) :
    (s.setReport r).v = s.v := rfl
@[simp] theorem State.setReport_I (s : State) (r : Report) :
    (s.setReport r).I = s.I := rfl
@[simp] theorem State.setReport_pc (s : State) (r : Report) :
    (s.setReport r).pc = s.pc := rfl
@[simp] theorem State.setReport_stack (s : State) (r : Report) :
    (s.setReport r).stack = s.stack := rfl
@[simp] theorem State.setReport_dt (s : State) (r : Report) :
    (s.setReport r).dt = s.dt := rfl
@[simp] theorem State.setReport_st (s : State) (r : Report) :
    (s.setReport r).st = s.st := rfl
@[simp] theorem State.setReport_fb (s : State) (r : Report) :
    (s.setReport r).fb = s.fb := rfl
@[simp] theorem State.setReport_mem (s : State) (r : Report) :
    (s.setReport r).mem = s.mem := rfl
@[simp] theorem State.setReport_acc (s : State) (r : Report) :
    (s.setReport r).acc = s.acc := rfl
@[simp] theorem State.setReport_report (s : State) (r : Report) :
    (s.setReport r).report = r := rfl
@[simp] theorem State.setReport_faulted (s : State) (r : Report) :
    (s.setReport r).faulted = s.faulted := rfl
@[simp] theorem State.setReport_input (s : State) (r : Report) :
    (s.setReport r).input = s.input := rfl
@[simp] theorem State.setReport_pending (s : State) (r : Report) :
    (s.setReport r).pending = s.pending := rfl
@[simp] theorem State.setReport_iteration (s : State) (r : Report) :
    (s.setReport r).iteration = s.iteration := rfl
@[simp] theorem State.setReport_params (s : State) (r : Report) :
    (s.setReport r).params = s.params := rfl

/-! ### setFaulted -/

@[simp] theorem State.setFaulted_v (s : State) :
    s.setFaulted.v = s.v := rfl
@[simp] theorem State.setFaulted_I (s : State) :
    s.setFaulted.I = s.I := rfl
@[simp] theorem State.setFaulted_pc (s : State) :
    s.setFaulted.pc = s.pc := rfl
@[simp] theorem State.setFaulted_stack (s : State) :
    s.setFaulted.stack = s.stack := rfl
@[simp] theorem State.setFaulted_dt (s : State) :
    s.setFaulted.dt = s.dt := rfl
@[simp] theorem State.setFaulted_st (s : State) :
    s.setFaulted.st = s.st := rfl
@[simp] theorem State.setFaulted_fb (s : State) :
    s.setFaulted.fb = s.fb := rfl
@[simp] theorem State.setFaulted_mem (s : State) :
    s.setFaulted.mem = s.mem := rfl
@[simp] theorem State.setFaulted_acc (s : State) :
    s.setFaulted.acc = s.acc := rfl
@[simp] theorem State.setFaulted_report (s : State) :
    s.setFaulted.report = s.report := rfl
@[simp] theorem State.setFaulted_faulted (s : State) :
    s.setFaulted.faulted = true := rfl
@[simp] theorem State.setFaulted_input (s : State) :
    s.setFaulted.input = s.input := rfl
@[simp] theorem State.setFaulted_pending (s : State) :
    s.setFaulted.pending = s.pending := rfl
@[simp] theorem State.setFaulted_iteration (s : State) :
    s.setFaulted.iteration = s.iteration := rfl
@[simp] theorem State.setFaulted_params (s : State) :
    s.setFaulted.params = s.params := rfl

/-! ### setInput -/

@[simp] theorem State.setInput_v (s : State) (h : HostInput) :
    (s.setInput h).v = s.v := rfl
@[simp] theorem State.setInput_I (s : State) (h : HostInput) :
    (s.setInput h).I = s.I := rfl
@[simp] theorem State.setInput_pc (s : State) (h : HostInput) :
    (s.setInput h).pc = s.pc := rfl
@[simp] theorem State.setInput_stack (s : State) (h : HostInput) :
    (s.setInput h).stack = s.stack := rfl
@[simp] theorem State.setInput_dt (s : State) (h : HostInput) :
    (s.setInput h).dt = s.dt := rfl
@[simp] theorem State.setInput_st (s : State) (h : HostInput) :
    (s.setInput h).st = s.st := rfl
@[simp] theorem State.setInput_fb (s : State) (h : HostInput) :
    (s.setInput h).fb = s.fb := rfl
@[simp] theorem State.setInput_mem (s : State) (h : HostInput) :
    (s.setInput h).mem = s.mem := rfl
@[simp] theorem State.setInput_acc (s : State) (h : HostInput) :
    (s.setInput h).acc = s.acc := rfl
@[simp] theorem State.setInput_report (s : State) (h : HostInput) :
    (s.setInput h).report = s.report := rfl
@[simp] theorem State.setInput_faulted (s : State) (h : HostInput) :
    (s.setInput h).faulted = s.faulted := rfl
@[simp] theorem State.setInput_input (s : State) (h : HostInput) :
    (s.setInput h).input = h := rfl
@[simp] theorem State.setInput_pending (s : State) (h : HostInput) :
    (s.setInput h).pending = s.pending := rfl
@[simp] theorem State.setInput_iteration (s : State) (h : HostInput) :
    (s.setInput h).iteration = s.iteration := rfl
@[simp] theorem State.setInput_params (s : State) (h : HostInput) :
    (s.setInput h).params = s.params := rfl

/-! ### writeByte -/

@[simp] theorem State.writeByte_v (s : State) (a : Nat) (b : Byte) :
    (s.writeByte a b).v = s.v := rfl
@[simp] theorem State.writeByte_I (s : State) (a : Nat) (b : Byte) :
    (s.writeByte a b).I = s.I := rfl
@[simp] theorem State.writeByte_pc (s : State) (a : Nat) (b : Byte) :
    (s.writeByte a b).pc = s.pc := rfl
@[simp] theorem State.writeByte_stack (s : State) (a : Nat) (b : Byte) :
    (s.writeByte a b).stack = s.stack := rfl
@[simp] theorem State.writeByte_dt (s : State) (a : Nat) (b : Byte) :
    (s.writeByte a b).dt = s.dt := rfl
@[simp] theorem State.writeByte_st (s : State) (a : Nat) (b : Byte) :
    (s.writeByte a b).st = s.st := rfl
@[simp] theorem State.writeByte_fb (s : State) (a : Nat) (b : Byte) :
    (s.writeByte a b).fb = s.fb := rfl
@[simp] theorem State.writeByte_mem (s : State) (a : Nat) (b : Byte) :
    (s.writeByte a b).mem = Memory.write s.params.glyphRom s.mem a b := rfl
@[simp] theorem State.writeByte_acc (s : State) (a : Nat) (b : Byte) :
    (s.writeByte a b).acc = s.acc := rfl
@[simp] theorem State.writeByte_report (s : State) (a : Nat) (b : Byte) :
    (s.writeByte a b).report = s.report := rfl
@[simp] theorem State.writeByte_faulted (s : State) (a : Nat) (b : Byte) :
    (s.writeByte a b).faulted = s.faulted := rfl
@[simp] theorem State.writeByte_input (s : State) (a : Nat) (b : Byte) :
    (s.writeByte a b).input = s.input := rfl
@[simp] theorem State.writeByte_pending (s : State) (a : Nat) (b : Byte) :
    (s.writeByte a b).pending = s.pending := rfl
@[simp] theorem State.writeByte_iteration (s : State) (a : Nat) (b : Byte) :
    (s.writeByte a b).iteration = s.iteration := rfl
@[simp] theorem State.writeByte_params (s : State) (a : Nat) (b : Byte) :
    (s.writeByte a b).params = s.params := rfl

/-! ### push -/

@[simp] theorem State.push_v (s : State) (w : Word) :
    (s.push w).v = s.v := rfl
@[simp] theorem State.push_I (s : State) (w : Word) :
    (s.push w).I = s.I := rfl
@[simp] theorem State.push_pc (s : State) (w : Word) :
    (s.push w).pc = s.pc := rfl
@[simp] theorem State.push_stack (s : State) (w : Word) :
    (s.push w).stack = w :: s.stack := rfl
@[simp] theorem State.push_dt (s : State) (w : Word) :
    (s.push w).dt = s.dt := rfl
@[simp] theorem State.push_st (s : State) (w : Word) :
    (s.push w).st = s.st := rfl
@[simp] theorem State.push_fb (s : State) (w : Word) :
    (s.push w).fb = s.fb := rfl
@[simp] theorem State.push_mem (s : State) (w : Word) :
    (s.push w).mem = s.mem := rfl
@[simp] theorem State.push_acc (s : State) (w : Word) :
    (s.push w).acc = s.acc := rfl
@[simp] theorem State.push_report (s : State) (w : Word) :
    (s.push w).report = s.report := rfl
@[simp] theorem State.push_faulted (s : State) (w : Word) :
    (s.push w).faulted = s.faulted := rfl
@[simp] theorem State.push_input (s : State) (w : Word) :
    (s.push w).input = s.input := rfl
@[simp] theorem State.push_pending (s : State) (w : Word) :
    (s.push w).pending = s.pending := rfl
@[simp] theorem State.push_iteration (s : State) (w : Word) :
    (s.push w).iteration = s.iteration := rfl
@[simp] theorem State.push_params (s : State) (w : Word) :
    (s.push w).params = s.params := rfl

/-! ### reportError -/

@[simp] theorem State.reportError_v (s : State) (c : ErrorCode) (n : Nat) :
    (s.reportError c n).v = s.v := rfl
@[simp] theorem State.reportError_I (s : State) (c : ErrorCode) (n : Nat) :
    (s.reportError c n).I = s.I := rfl
@[simp] theorem State.reportError_pc (s : State) (c : ErrorCode) (n : Nat) :
    (s.reportError c n).pc = s.pc := rfl
@[simp] theorem State.reportError_stack (s : State) (c : ErrorCode) (n : Nat) :
    (s.reportError c n).stack = s.stack := rfl
@[simp] theorem State.reportError_dt (s : State) (c : ErrorCode) (n : Nat) :
    (s.reportError c n).dt = s.dt := rfl
@[simp] theorem State.reportError_st (s : State) (c : ErrorCode) (n : Nat) :
    (s.reportError c n).st = s.st := rfl
@[simp] theorem State.reportError_fb (s : State) (c : ErrorCode) (n : Nat) :
    (s.reportError c n).fb = s.fb := rfl
@[simp] theorem State.reportError_mem (s : State) (c : ErrorCode) (n : Nat) :
    (s.reportError c n).mem = s.mem := rfl
@[simp] theorem State.reportError_acc (s : State) (c : ErrorCode) (n : Nat) :
    (s.reportError c n).acc = s.acc := rfl
@[simp] theorem State.reportError_report (s : State) (c : ErrorCode) (n : Nat) :
    (s.reportError c n).report = ⟨c, n⟩ := rfl
@[simp] theorem State.reportError_faulted (s : State) (c : ErrorCode) (n : Nat) :
    (s.reportError c n).faulted = s.faulted := rfl
@[simp] theorem State.reportError_input (s : State) (c : ErrorCode) (n : Nat) :
    (s.reportError c n).input = s.input := rfl
@[simp] theorem State.reportError_pending (s : State) (c : ErrorCode) (n : Nat) :
    (s.reportError c n).pending = s.pending := rfl
@[simp] theorem State.reportError_iteration (s : State) (c : ErrorCode) (n : Nat) :
    (s.reportError c n).iteration = s.iteration := rfl
@[simp] theorem State.reportError_params (s : State) (c : ErrorCode) (n : Nat) :
    (s.reportError c n).params = s.params := rfl

/-! ### markFault -/

@[simp] theorem State.markFault_v (s : State) (c : ErrorCode) (n : Nat) :
    (s.markFault c n).v = s.v := rfl
@[simp] theorem State.markFault_I (s : State) (c : ErrorCode) (n : Nat) :
    (s.markFault c n).I = s.I := rfl
@[simp] theorem State.markFault_pc (s : State) (c : ErrorCode) (n : Nat) :
    (s.markFault c n).pc = s.pc := rfl
@[simp] theorem State.markFault_stack (s : State) (c : ErrorCode) (n : Nat) :
    (s.markFault c n).stack = s.stack := rfl
@[simp] theorem State.markFault_dt (s : State) (c : ErrorCode) (n : Nat) :
    (s.markFault c n).dt = s.dt := rfl
@[simp] theorem State.markFault_st (s : State) (c : ErrorCode) (n : Nat) :
    (s.markFault c n).st = s.st := rfl
@[simp] theorem State.markFault_fb (s : State) (c : ErrorCode) (n : Nat) :
    (s.markFault c n).fb = s.fb := rfl
@[simp] theorem State.markFault_mem (s : State) (c : ErrorCode) (n : Nat) :
    (s.markFault c n).mem = s.mem := rfl
@[simp] theorem State.markFault_acc (s : State) (c : ErrorCode) (n : Nat) :
    (s.markFault c n).acc = s.acc := rfl
@[simp] theorem State.markFault_report (s : State) (c : ErrorCode) (n : Nat) :
    (s.markFault c n).report = ⟨c, n⟩ := rfl
@[simp] theorem State.markFault_faulted (s : State) (c : ErrorCode) (n : Nat) :
    (s.markFault c n).faulted = true := rfl
@[simp] theorem State.markFault_input (s : State) (c : ErrorCode) (n : Nat) :
    (s.markFault c n).input = s.input := rfl
@[simp] theorem State.markFault_pending (s : State) (c : ErrorCode) (n : Nat) :
    (s.markFault c n).pending = s.pending := rfl
@[simp] theorem State.markFault_iteration (s : State) (c : ErrorCode) (n : Nat) :
    (s.markFault c n).iteration = s.iteration := rfl
@[simp] theorem State.markFault_params (s : State) (c : ErrorCode) (n : Nat) :
    (s.markFault c n).params = s.params := rfl

/-! ### skipIf -/

@[simp] theorem State.skipIf_v (s : State) (c : Bool) :
    (s.skipIf c).v = s.v := rfl
@[simp] theorem State.skipIf_I (s : State) (c : Bool) :
    (s.skipIf c).I = s.I := rfl
@[simp] theorem State.skipIf_pc (s : State) (c : Bool) :
    (s.skipIf c).pc = if c then s.pc + 2 else s.pc := rfl
@[simp] theorem State.skipIf_stack (s : State) (c : Bool) :
    (s.skipIf c).stack = s.stack := rfl
@[simp] theorem State.skipIf_dt (s : State) (c : Bool) :
    (s.skipIf c).dt = s.dt := rfl
@[simp] theorem State.skipIf_st (s : State) (c : Bool) :
    (s.skipIf c).st = s.st := rfl
@[simp] theorem State.skipIf_fb (s : State) (c : Bool) :
    (s.skipIf c).fb = s.fb := rfl
@[simp] theorem State.skipIf_mem (s : State) (c : Bool) :
    (s.skipIf c).mem = s.mem := rfl
@[simp] theorem State.skipIf_acc (s : State) (c : Bool) :
    (s.skipIf c).acc = s.acc := rfl
@[simp] theorem State.skipIf_report (s : State) (c : Bool) :
    (s.skipIf c).report = s.report := rfl
@[simp] theorem State.skipIf_faulted (s : State) (c : Bool) :
    (s.skipIf c).faulted = s.faulted := rfl
@[simp] theorem State.skipIf_input (s : State) (c : Bool) :
    (s.skipIf c).input = s.input := rfl
@[simp] theorem State.skipIf_pending (s : State) (c : Bool) :
    (s.skipIf c).pending = s.pending := rfl
@[simp] theorem State.skipIf_iteration (s : State) (c : Bool) :
    (s.skipIf c).iteration = s.iteration := rfl
@[simp] theorem State.skipIf_params (s : State) (c : Bool) :
    (s.skipIf c).params = s.params := rfl

/-! ### advance -/

@[simp] theorem State.advance_v (s : State) :
    s.advance.v = s.v := rfl
@[simp] theorem State.advance_I (s : State) :
    s.advance.I = s.I := rfl
@[simp] theorem State.advance_pc (s : State) :
    s.advance.pc = s.pc + 2 := rfl
@[simp] theorem State.advance_stack (s : State) :
    s.advance.stack = s.stack := rfl
@[simp] theorem State.advance_dt (s : State) :
    s.advance.dt = s.dt := rfl
@[simp] theorem State.advance_st (s : State) :
    s.advance.st = s.st := rfl
@[simp] theorem State.advance_fb (s : State) :
    s.advance.fb = s.fb := rfl
@[simp] theorem State.advance_mem (s : State) :
    s.advance.mem = s.mem := rfl
@[simp] theorem State.advance_acc (s : State) :
    s.advance.acc = s.acc := rfl
@[simp] theorem State.advance_report (s : State) :
    s.advance.report = s.report := rfl
@[simp] theorem State.advance_faulted (s : State) :
    s.advance.faulted = s.faulted := rfl
@[simp] theorem State.advance_input (s : State) :
    s.advance.input = s.input := rfl
@[simp] theorem State.advance_pending (s : State) :
    s.advance.pending = s.pending := rfl
@[simp] theorem State.advance_iteration (s : State) :
    s.advance.iteration = s.iteration := rfl
@[simp] theorem State.advance_params (s : State) :
    s.advance.params = s.params := rfl

/-! ### tickIf -/

@[simp] theorem State.tickIf_v (s : State) (c : Bool) :
    (s.tickIf c).v = s.v := rfl
@[simp] theorem State.tickIf_I (s : State) (c : Bool) :
    (s.tickIf c).I = s.I := rfl
@[simp] theorem State.tickIf_pc (s : State) (c : Bool) :
    (s.tickIf c).pc = s.pc := rfl
@[simp] theorem State.tickIf_stack (s : State) (c : Bool) :
    (s.tickIf c).stack = s.stack := rfl
@[simp] theorem State.tickIf_dt (s : State) (c : Bool) :
    (s.tickIf c).dt = countDown c s.dt := rfl
@[simp] theorem State.tickIf_st (s : State) (c : Bool) :
    (s.tickIf c).st = countDown c s.st := rfl
@[simp] theorem State.tickIf_fb (s : State) (c : Bool) :
    (s.tickIf c).fb = s.fb := rfl
@[simp] theorem State.tickIf_mem (s : State) (c : Bool) :
    (s.tickIf c).mem = s.mem := rfl
@[simp] theorem State.tickIf_acc (s : State) (c : Bool) :
    (s.tickIf c).acc = s.acc := rfl
@[simp] theorem State.tickIf_report (s : State) (c : Bool) :
    (s.tickIf c).report = s.report := rfl
@[simp] theorem State.tickIf_faulted (s : State) (c : Bool) :
    (s.tickIf c).faulted = s.faulted := rfl
@[simp] theorem State.tickIf_input (s : State) (c : Bool) :
    (s.tickIf c).input = s.input := rfl
@[simp] theorem State.tickIf_pending (s : State) (c : Bool) :
    (s.tickIf c).pending = s.pending := rfl
@[simp] theorem State.tickIf_iteration (s : State) (c : Bool) :
    (s.tickIf c).iteration = s.iteration := rfl
@[simp] theorem State.tickIf_params (s : State) (c : Bool) :
    (s.tickIf c).params = s.params := rfl

/-! ### accrue -/

@[simp] theorem State.accrue_v (s : State) :
    s.accrue.v = s.v := rfl
@[simp] theorem State.accrue_I (s : State) :
    s.accrue.I = s.I := rfl
@[simp] theorem State.accrue_pc (s : State) :
    s.accrue.pc = s.pc := rfl
@[simp] theorem State.accrue_stack (s : State) :
    s.accrue.stack = s.stack := rfl
@[simp] theorem State.accrue_dt (s : State) :
    s.accrue.dt = countDown s.tickFires s.dt := rfl
@[simp] theorem State.accrue_st (s : State) :
    s.accrue.st = countDown s.tickFires s.st := rfl
@[simp] theorem State.accrue_fb (s : State) :
    s.accrue.fb = s.fb := rfl
@[simp] theorem State.accrue_mem (s : State) :
    s.accrue.mem = s.mem := rfl
@[simp] theorem State.accrue_acc (s : State) :
    s.accrue.acc = if s.tickFires then s.acc + s.input.elapsed - tickPeriod else s.acc + s.input.elapsed := rfl
@[simp] theorem State.accrue_report (s : State) :
    s.accrue.report = s.report := rfl
@[simp] theorem State.accrue_faulted (s : State) :
    s.accrue.faulted = s.faulted := rfl
@[simp] theorem State.accrue_input (s : State) :
    s.accrue.input = s.input := rfl
@[simp] theorem State.accrue_pending (s : State) :
    s.accrue.pending = s.pending := rfl
@[simp] theorem State.accrue_iteration (s : State) :
    s.accrue.iteration = s.iteration := rfl
@[simp] theorem State.accrue_params (s : State) :
    s.accrue.params = s.params := rfl

/-! ### Reading a register or a byte after an update -/

@[simp] theorem State.reg_setReg_self (s : State) (x : Reg) (b : Byte) : (s.setReg x b).reg x = b := by
  simp [State.reg]

theorem State.reg_setReg_of_ne (s : State) {x r : Reg} (b : Byte) (h : r ≠ x) :
    (s.setReg x b).reg r = s.reg r := by
  have : x.val ≠ r.val := fun e => h (Fin.ext e.symm)
  simp [State.reg, this]

theorem State.reg_setReg (s : State) (x r : Reg) (b : Byte) :
    (s.setReg x b).reg r = if r = x then b else s.reg r := by
  split
  · next h => rw [h, State.reg_setReg_self]
  · next h => exact State.reg_setReg_of_ne s b h

/-- Writing back what a register holds changes nothing. -/
theorem State.setReg_reg (s : State) (x : Reg) : s.setReg x (s.reg x) = s := by
  cases s
  simp [State.setReg, State.reg]

end Sys2Proof.Machine
end

