-- ==== Sys2Proof/Laws/Memory.lean ====
section
/-! SUPPORT. Memory: a read after a write, and that every memory operation keeps the canonical form. -/

namespace Sys2Proof.Machine

theorem Memory.lookup_insert (m : Memory) (a k : Nat) (b : Byte) :
    Memory.lookup (Memory.insert m a b) k = if k = a then some b else Memory.lookup m k := by
  induction m with
  | nil => simp [Memory.insert, Memory.lookup]
  | cons c m ih =>
    obtain ⟨j, c⟩ := c
    simp only [Memory.insert]
    split
    · simp [Memory.lookup]
    · split
      · next h => subst h; simp only [Memory.lookup]; split <;> rfl
      · next h => simp only [Memory.lookup, ih]; split <;> split <;> simp_all

theorem Memory.lookup_erase (m : Memory) (a k : Nat) :
    Memory.lookup (Memory.erase m a) k = if k = a then none else Memory.lookup m k := by
  induction m with
  | nil => simp [Memory.erase, Memory.lookup]
  | cons c m ih =>
    obtain ⟨j, c⟩ := c
    by_cases h : j = a
    · subst h
      have : Memory.erase ((j, c) :: m) j = Memory.erase m j := by simp [Memory.erase]
      rw [this, ih]
      simp only [Memory.lookup]
      split <;> simp_all
    · have : Memory.erase ((j, c) :: m) a = (j, c) :: Memory.erase m a := by simp [Memory.erase, h]
      rw [this]
      simp only [Memory.lookup, ih]
      split <;> split <;> simp_all

/-- A byte reads back what was written to it (R56, R60). -/
theorem Memory.read_write_self (g : GlyphRom) (m : Memory) {a : Nat} (b : Byte) (h : a ≤ 0xFFF) :
    Memory.read g (Memory.write g m a b) a = b := by
  unfold Memory.write Memory.read
  rw [if_neg (by omega)]
  split
  · next e => simp [Memory.lookup_erase, unlistedByte, e]
  · simp [Memory.lookup_insert]

/-- A write leaves every other byte alone. -/
theorem Memory.read_write_of_ne (g : GlyphRom) (m : Memory) {a k : Nat} (b : Byte) (h : k ≠ a) :
    Memory.read g (Memory.write g m a b) k = Memory.read g m k := by
  unfold Memory.write Memory.read
  split
  · rfl
  · split
    · simp [Memory.lookup_erase, h]
    · simp [Memory.lookup_insert, h]

theorem Memory.read_write (g : GlyphRom) (m : Memory) (a k : Nat) (b : Byte) (h : a ≤ 0xFFF) :
    Memory.read g (Memory.write g m a b) k = if k = a then b else Memory.read g m k := by
  split
  · next e => rw [e, Memory.read_write_self g m b h]
  · next e => exact Memory.read_write_of_ne g m b e

/-- One entry of a memory in canonical form. -/
def Memory.entryOk (g : GlyphRom) (c : Host.Cell) : Prop := c.1 ≤ 0xFFF ∧ resetByte? g c.1 ≠ some c.2

theorem Memory.wf_iff (g : GlyphRom) (m : Memory) :
    Memory.wf g m = true ↔ m.Pairwise (fun p q => p.1 < q.1) ∧ ∀ c ∈ m, Memory.entryOk g c := by
  simp [Memory.wf, Memory.entryOk]

@[simp] theorem Memory.wf_nil (g : GlyphRom) : Memory.wf g [] = true := rfl

theorem Memory.mem_insert {m : Memory} {a : Nat} {b : Byte} {c : Host.Cell}
    (h : c ∈ Memory.insert m a b) : c = (a, b) ∨ c ∈ m := by
  induction m with
  | nil => simpa [Memory.insert] using h
  | cons d m ih =>
    obtain ⟨j, d⟩ := d
    simp only [Memory.insert] at h
    split at h
    · simpa using h
    · split at h
      · simp only [List.mem_cons] at h ⊢; tauto
      · simp only [List.mem_cons] at h ⊢
        rcases h with h | h
        · exact .inr (.inl h)
        · rcases ih h with h | h <;> tauto

theorem Memory.pairwise_insert {m : Memory} (a : Nat) (b : Byte)
    (h : m.Pairwise fun p q => p.1 < q.1) :
    (Memory.insert m a b).Pairwise fun p q => p.1 < q.1 := by
  induction m with
  | nil => simp [Memory.insert]
  | cons d m ih =>
    obtain ⟨j, d⟩ := d
    obtain ⟨hd, hm⟩ := List.pairwise_cons.mp h
    simp only [Memory.insert]
    split
    · next lt =>
      refine List.pairwise_cons.mpr ⟨fun q hq => ?_, h⟩
      rcases List.mem_cons.mp hq with rfl | hq
      · exact lt
      · exact lt_trans lt (hd q hq)
    · split
      · next e => subst e; exact List.pairwise_cons.mpr ⟨hd, hm⟩
      · next nlt ne =>
        refine List.pairwise_cons.mpr ⟨fun q hq => ?_, ih hm⟩
        rcases Memory.mem_insert hq with rfl | hq
        · show j < a; omega
        · exact hd q hq

/-- Every write keeps the canonical form. -/
theorem Memory.wf_write {g : GlyphRom} {m : Memory} (a : Nat) (b : Byte) (h : Memory.wf g m = true) :
    Memory.wf g (Memory.write g m a b) = true := by
  rw [Memory.wf_iff] at h ⊢
  obtain ⟨hp, hm⟩ := h
  unfold Memory.write
  split
  · exact ⟨hp, hm⟩
  · next ha =>
    split
    · exact ⟨hp.sublist List.filter_sublist, fun c hc => hm c (List.mem_of_mem_filter hc)⟩
    · next hb =>
      refine ⟨Memory.pairwise_insert a b hp, fun c hc => ?_⟩
      rcases Memory.mem_insert hc with rfl | hc
      · exact ⟨by show a ≤ _; omega, hb⟩
      · exact hm c hc

/-! ### Bytes of the state -/

theorem State.byte_writeByte_self (s : State) {a : Nat} (b : Byte) (h : a ≤ 0xFFF) :
    (s.writeByte a b).byte a = b := Memory.read_write_self s.params.glyphRom s.mem b h

theorem State.byte_writeByte_of_ne (s : State) {a k : Nat} (b : Byte) (h : k ≠ a) :
    (s.writeByte a b).byte k = s.byte k := Memory.read_write_of_ne s.params.glyphRom s.mem b h

/-- A byte depends on the memory and the glyph table alone. -/
theorem State.byte_congr {s t : State} (h : t.mem = s.mem) (hp : t.params = s.params) (a : Nat) :
    t.byte a = s.byte a := by
  simp [State.byte, h, hp]

/-- An address in the glyph region that memory does not list reads as its byte of `GLYPH_ROM` (R37). -/
theorem unlistedByte_of_lt (g : GlyphRom) {a : Nat} (h : a < 80) : unlistedByte g a = g[a] := by
  simp [unlistedByte, resetByte?, h]

/-- Any other address that memory does not list reads as `MEM_INIT` (R37). -/
theorem unlistedByte_of_le (g : GlyphRom) {a : Nat} (h : 80 ≤ a) : unlistedByte g a = Config.memInit a := by
  simp [unlistedByte, resetByte?, h]

end Sys2Proof.Machine
end

