-- ==== Sys2Proof/Laws/Ops.lean ====
section
/-! SUPPORT. One lemma per shared operation: everything it can answer. -/

namespace Sys2Proof.Machine

/-! ### Operations that may fault -/

theorem withinMemory_of_le {highest : Nat} (s k : State) (h : highest ≤ 0xFFF) :
    withinMemory highest s k = .next k := if_neg (by omega)

theorem withinMemory_of_lt {highest : Nat} (s k : State) (h : 0xFFF < highest) :
    withinMemory highest s k = .fault (.memOutOfRange highest (s.markFault .memOutOfRange highest)) := if_pos h

theorem withinMemory_next {highest : Nat} {s k t : State} (h : withinMemory highest s k = .next t) :
    highest ≤ 0xFFF ∧ t = k := by
  unfold withinMemory at h
  split at h
  · cases h
  · cases h; exact ⟨by omega, rfl⟩

theorem withKey_of_le {x : Reg} {s : State} (k : State) (h : (s.reg x).toNat ≤ 15) :
    withKey x s k = .next k := if_neg (by omega)

theorem withKey_of_lt {x : Reg} {s : State} (k : State) (h : 15 < (s.reg x).toNat) :
    withKey x s k = .fault (.keyIndexOutOfRange (s.reg x).toNat (s.markFault .keyIndexOutOfRange (s.reg x).toNat)) :=
  if_pos h

theorem withKey_next {x : Reg} {s k t : State} (h : withKey x s k = .next t) :
    (s.reg x).toNat ≤ 15 ∧ t = k := by
  unfold withKey at h
  split at h
  · cases h
  · cases h; exact ⟨by omega, rfl⟩

theorem stackUnderflow_next {s t : State} (h : stackUnderflow s = .next t) :
    s.params.continueAfterUnderflow = true ∧ t = s.markFault .stackUnderflow s.fetchedFrom := by
  unfold stackUnderflow at h
  split at h
  · next hc => cases h; exact ⟨hc, rfl⟩
  · cases h

/-! ### Blocks of registers and memory -/

/-- Storing a block changes memory alone. -/
theorem storeBlock_eq (k : Nat) (s : State) : storeBlock k s = s.setMem (storeBlock k s).mem := by
  induction k with
  | zero => rfl
  | succ k ih =>
    simp only [storeBlock]
    split
    · rw [ih]; rfl
    · exact ih

@[simp] theorem storeBlock_I (k : Nat) (s : State) : (storeBlock k s).I = s.I := by rw [storeBlock_eq]; rfl

@[simp] theorem storeBlock_v (k : Nat) (s : State) : (storeBlock k s).v = s.v := by rw [storeBlock_eq]; rfl

@[simp] theorem storeBlock_params (k : Nat) (s : State) : (storeBlock k s).params = s.params := by
  rw [storeBlock_eq]; rfl

/-- Storing a block keeps the canonical form of memory. -/
theorem storeBlock_wf (k : Nat) (s : State) (h : Memory.wf s.params.glyphRom s.mem = true) :
    Memory.wf s.params.glyphRom (storeBlock k s).mem = true := by
  induction k with
  | zero => exact h
  | succ k ih =>
    simp only [storeBlock]
    split
    · simpa using Memory.wf_write _ _ ih
    · exact ih

/-- Every byte after a block is stored: its register inside the block, as before outside (R134). -/
theorem storeBlock_byte (k : Nat) (s : State) (hk : k ≤ 16) (hI : s.I.toNat + k ≤ 0x1000) (a : Nat) :
    (storeBlock k s).byte a =
      if h : s.I.toNat ≤ a ∧ a < s.I.toNat + k then s.reg ⟨a - s.I.toNat, by omega⟩ else s.byte a := by
  induction k with
  | zero => rw [dif_neg (by omega)]; rfl
  | succ k ih =>
    have hr : ∀ r, (storeBlock k s).reg r = s.reg r := fun r => by simp [State.reg]
    simp only [storeBlock, dif_pos (show k < 16 by omega), State.effective, storeBlock_I, hr]
    by_cases e : a = s.I.toNat + k
    · subst e
      rw [State.byte_writeByte_self _ _ (by omega), dif_pos (by omega)]; simp
    · rw [State.byte_writeByte_of_ne _ _ e, ih (by omega) (by omega)]
      by_cases h : s.I.toNat ≤ a ∧ a < s.I.toNat + k
      · rw [dif_pos h, dif_pos (by omega)]
      · rw [dif_neg h, dif_neg (by omega)]

/-- Loading a block changes general registers alone. -/
theorem loadBlock_eq (k : Nat) (s : State) : loadBlock k s = { s with v := (loadBlock k s).v } := by
  induction k with
  | zero => rfl
  | succ k ih =>
    simp only [loadBlock]
    split
    · rw [ih]; rfl
    · exact ih

@[simp] theorem loadBlock_I (k : Nat) (s : State) : (loadBlock k s).I = s.I := by rw [loadBlock_eq]

@[simp] theorem loadBlock_params (k : Nat) (s : State) : (loadBlock k s).params = s.params := by rw [loadBlock_eq]

@[simp] theorem loadBlock_mem (k : Nat) (s : State) : (loadBlock k s).mem = s.mem := by rw [loadBlock_eq]

/-- Every register after a block is loaded: its byte inside the block, as before outside (R135). -/
theorem loadBlock_reg (k : Nat) (s : State) (hk : k ≤ 16) (r : Reg) :
    (loadBlock k s).reg r = if r.val < k then s.byte (s.I.toNat + r.val) else s.reg r := by
  induction k with
  | zero => simp [loadBlock]
  | succ k ih =>
    have hb : ∀ a, (loadBlock k s).byte a = s.byte a := fun r => by simp [State.byte]
    simp only [loadBlock, dif_pos (show k < 16 by omega), State.effective, loadBlock_I, hb, State.reg_setReg, ih (by omega)]
    by_cases e : r.val = k
    · rw [if_pos (Fin.ext e), if_pos (by omega), e]
    · rw [if_neg (fun h => e (by rw [h]))]
      by_cases h : r.val < k
      · rw [if_pos h, if_pos (by omega)]
      · rw [if_neg h, if_neg (by omega)]

/-- Loading a program's bytes changes memory alone. -/
theorem loadBytes_eq (a : Nat) (p : List Byte) (s : State) : loadBytes a p s = s.setMem (loadBytes a p s).mem := by
  induction p generalizing a s with
  | nil => rfl
  | cons b bs ih => simp only [loadBytes]; rw [ih]; rfl

/-- Loading a program's bytes keeps the canonical form of memory. -/
theorem loadBytes_wf (a : Nat) (p : List Byte) (s : State) (h : Memory.wf s.params.glyphRom s.mem = true) :
    Memory.wf s.params.glyphRom (loadBytes a p s).mem = true := by
  induction p generalizing a s with
  | nil => exact h
  | cons b bs ih => exact ih _ _ (Memory.wf_write _ _ h)

/-- Every byte after a program's bytes are loaded (R202). -/
theorem loadBytes_byte (p : List Byte) (a : Nat) (s : State) (h : a + p.length ≤ 0x1000) (k : Nat) :
    (loadBytes a p s).byte k = if h : a ≤ k ∧ k < a + p.length then p[k - a]'(by omega) else s.byte k := by
  induction p generalizing a s with
  | nil => rw [dif_neg (by simp)]; rfl
  | cons b bs ih =>
    simp only [List.length_cons] at h
    rw [loadBytes, ih _ _ (by omega)]
    by_cases h1 : a + 1 ≤ k ∧ k < a + 1 + bs.length
    · rw [dif_pos h1, dif_pos (by simp; omega)]
      have : k - a = (k - (a+1)) + 1 := by omega
      simp [this]
    · rw [dif_neg h1]
      by_cases e : k = a
      · subst e; rw [State.byte_writeByte_self _ _ (by omega), dif_pos (by simp)]; simp
      · rw [State.byte_writeByte_of_ne _ _ e, dif_neg (by simp; omega)]

/-! ### The framebuffer unit -/

/-- A pixel after a `set` (R145). -/
theorem Framebuffer.pixel_setPixel (fb : Framebuffer) (cx kx : Fin 64) (cy ky : Fin 32) (on : Bool) :
    (Framebuffer.setPixel fb cx cy on).pixel kx ky = if kx = cx ∧ ky = cy then on else fb.pixel kx ky := by
  unfold Framebuffer.pixel Framebuffer.setPixel
  by_cases hy : ky = cy
  · subst hy
    by_cases hx : kx = cx
    · subst hx; simp
    · have : cx.val ≠ kx.val := fun e => hx (Fin.ext e.symm)
      simp [hx, this]
  · have : cy.val ≠ ky.val := fun e => hy (Fin.ext e.symm)
    simp [hy, this]

@[simp] theorem Framebuffer.pixel_allOff (cx : Fin 64) (cy : Fin 32) : Framebuffer.allOff.pixel cx cy = false := by
  simp [Framebuffer.pixel, Framebuffer.allOff]

/-- A sprite bit of 1 toggles its pixel, leaves the others, and is a collision on a lit one (R142). -/
theorem plot_spec (cx : Fin 64) (cy : Fin 32) (c : Canvas) :
    (∀ kx ky, (plot cx cy c).fb.pixel kx ky = if kx = cx ∧ ky = cy then !c.fb.pixel kx ky else c.fb.pixel kx ky) ∧
      (plot cx cy c).hit = (c.hit || c.fb.pixel cx cy) := by
  unfold plot
  split
  · next h =>
    refine ⟨fun kx ky => ?_, by simp [h]⟩
    rw [Framebuffer.pixel_setPixel]
    split
    · next e => obtain ⟨rfl, rfl⟩ := e; simp [h]
    · rfl
  · next h =>
    simp only [Bool.not_eq_true] at h
    refine ⟨fun kx ky => ?_, by simp [h]⟩
    rw [Framebuffer.pixel_setPixel]
    split
    · next e => obtain ⟨rfl, rfl⟩ := e; simp [h]
    · rfl

/-! ### The step -/

/-- Everything `fetchDecode` can answer (R70, R73, R174, R175). -/
theorem fetchDecode_cases (s : State) :
    (0xFFE < s.pc.toNat ∧
      fetchDecode s = .error (raise .fetchOutOfRange .fetchOutOfRange s.pc.toNat s)) ∨
    (s.pc.toNat ≤ 0xFFE ∧ decodeWord (s.wordAt s.pc.toNat) = none ∧
      fetchDecode s =
        .error (raise .reservedOpcode .reservedOpcode (s.wordAt s.pc.toNat).toNat s.advance)) ∨
    (∃ i, s.pc.toNat ≤ 0xFFE ∧ decodeWord (s.wordAt s.pc.toNat) = some i ∧
      fetchDecode s = .ok (i, s.advance)) := by
  unfold fetchDecode
  split
  · next h => exact .inl ⟨h, rfl⟩
  · next h =>
    rcases hd : decodeWord (s.wordAt s.pc.toNat) with _ | i
    · exact .inr (.inl ⟨by omega, rfl, rfl⟩)
    · exact .inr (.inr ⟨i, by omega, rfl, rfl⟩)

/-- A step that gives a next state ran exactly one instruction (R6, R73). -/
theorem step_next {s t : State} (h : step s = .next t) :
    ∃ i u, s.poll.pc.toNat ≤ 0xFFE ∧ decodeWord (s.poll.wordAt s.poll.pc.toNat) = some i ∧
      exec i s.poll.advance = .next u ∧ t = u.accrue := by
  unfold step at h
  rcases fetchDecode_cases s.poll with ⟨_, e⟩ | ⟨_, _, e⟩ | ⟨i, hp, hd, e⟩
  · rw [e] at h; cases h
  · rw [e] at h; cases h
  · rw [e] at h
    cases hx : exec i s.poll.advance with
    | next u => simp only [hx, finish] at h; cases h; exact ⟨i, u, hp, hd, hx, rfl⟩
    | fault f => simp only [hx, finish] at h; cases h
    | refused r => simp only [hx, finish] at h; cases h

/-! ### Poll: the report and the inputs change, nothing else -/

/-- The poll leaves everything but the report, the inputs and their bookkeeping (R33, R178). -/
theorem State.poll_eq (s : State) :
    s.poll = { s with report := .clear, input := s.poll.input, pending := s.poll.pending, iteration := s.iteration + 1 } := by
  unfold State.poll
  split <;> rfl

@[simp] theorem State.poll_v (s : State) : s.poll.v = s.v := by rw [State.poll_eq]
@[simp] theorem State.poll_I (s : State) : s.poll.I = s.I := by rw [State.poll_eq]
@[simp] theorem State.poll_pc (s : State) : s.poll.pc = s.pc := by rw [State.poll_eq]
@[simp] theorem State.poll_stack (s : State) : s.poll.stack = s.stack := by rw [State.poll_eq]
@[simp] theorem State.poll_dt (s : State) : s.poll.dt = s.dt := by rw [State.poll_eq]
@[simp] theorem State.poll_st (s : State) : s.poll.st = s.st := by rw [State.poll_eq]
@[simp] theorem State.poll_fb (s : State) : s.poll.fb = s.fb := by rw [State.poll_eq]
@[simp] theorem State.poll_mem (s : State) : s.poll.mem = s.mem := by rw [State.poll_eq]
@[simp] theorem State.poll_acc (s : State) : s.poll.acc = s.acc := by rw [State.poll_eq]
@[simp] theorem State.poll_report (s : State) : s.poll.report = .clear := by rw [State.poll_eq]
@[simp] theorem State.poll_faulted (s : State) : s.poll.faulted = s.faulted := by rw [State.poll_eq]
@[simp] theorem State.poll_params (s : State) : s.poll.params = s.params := by rw [State.poll_eq]
@[simp] theorem State.poll_byte (s : State) (a : Nat) : s.poll.byte a = s.byte a :=
  State.byte_congr s.poll_mem s.poll_params a
@[simp] theorem State.poll_wordAt (s : State) (a : Nat) : s.poll.wordAt a = s.wordAt a := by simp [State.wordAt]

end Sys2Proof.Machine
end

