-- ==== Sys2Proof/Laws/Launch.lean ====
section
/-! SUPPORT. Reset for any parameters: its bytes, and that `State.reset` is the default case. -/

namespace Sys2Proof.Machine

@[simp] theorem State.resetWith_params (prm : Params) : (State.resetWith prm).params = prm := rfl
@[simp] theorem State.resetWith_mem (prm : Params) : (State.resetWith prm).mem = [] := rfl
@[simp] theorem State.resetWith_pc (prm : Params) : (State.resetWith prm).pc = 0x200 := rfl
@[simp] theorem State.resetWith_I (prm : Params) : (State.resetWith prm).I = 0 := rfl
@[simp] theorem State.resetWith_stack (prm : Params) : (State.resetWith prm).stack = [] := rfl
@[simp] theorem State.resetWith_fb (prm : Params) : (State.resetWith prm).fb = Framebuffer.allOff := rfl
@[simp] theorem State.resetWith_reg (prm : Params) (r : Reg) : (State.resetWith prm).reg r = 0 := by
  simp [State.resetWith, State.reset, State.reg]

theorem State.reset_eq_resetWith : State.reset = State.resetWith .default := rfl

/-- Reset leaves the parameter's bytes in the glyph region (R37). -/
theorem State.resetWith_byte_of_lt (prm : Params) {a : Nat} (h : a < 80) :
    (State.resetWith prm).byte a = prm.glyphRom[a] := unlistedByte_of_lt prm.glyphRom h

/-- Reset leaves every other byte at `MEM_INIT` (R37). -/
theorem State.resetWith_byte_of_le (prm : Params) {a : Nat} (h : 80 ≤ a) :
    (State.resetWith prm).byte a = Config.memInit a := unlistedByte_of_le prm.glyphRom h

end Sys2Proof.Machine
end

