-- ==== Sys2Proof/Laws/PerInstr.lean ====
section
/-! SUPPORT. Statements made for every instruction, one lemma per constructor. `RowBits`: an instruction's word has
the fixed bits of its row of the opcode map (spec/30_encoding.md R76). -/

namespace Sys2Proof

/-- A mask acts field by field. -/
theorem and_concat {n m : Nat} (a a' : BitVec n) (b b' : BitVec m) :
    (a ++ b) &&& (a' ++ b') = (a &&& a') ++ (b &&& b') := by
  ext k hk
  simp only [BitVec.getElem_and, BitVec.getElem_append]
  split <;> rfl

theorem and_packXYN (a b c d a' b' c' d' : Nibble) :
    packXYN a b c d &&& packXYN a' b' c' d' = packXYN (a &&& a') (b &&& b') (c &&& c') (d &&& d') := by
  unfold packXYN
  rw [and_concat, and_concat, and_concat]

theorem and_packXNN (a b a' b' : Nibble) (c c' : Byte) :
    packXNN a b c &&& packXNN a' b' c' = packXNN (a &&& a') (b &&& b') (c &&& c') := by
  unfold packXNN
  rw [and_concat, and_concat]

theorem and_packNNN (a a' : Nibble) (c c' : Addr) :
    packNNN a c &&& packNNN a' c' = packNNN (a &&& a') (c &&& c') := and_concat a a' c c'

theorem nibble_and_all (a : Nibble) : a &&& 0xF = a := BitVec.and_allOnes

theorem byte_and_all (a : Byte) : a &&& 0xFF = a := BitVec.and_allOnes

/-- The mask 0xF000 keeps `ir`, whatever the other fields are. -/
theorem packNNN_and_ir (ir : Nibble) (nnn : Addr) : packNNN ir nnn &&& 0xF000 = packNNN ir 0 :=
  (and_packNNN ir 0xF nnn 0).trans (congrArg₂ _ (nibble_and_all ir) BitVec.and_zero)

theorem packXNN_and_ir (ir x : Nibble) (nn : Byte) : packXNN ir x nn &&& 0xF000 = packXNN ir 0 0 := by
  rw [show (0xF000 : Word) = packXNN 0xF 0 0 from rfl, and_packXNN, nibble_and_all]
  exact congrArg₂ _ BitVec.and_zero BitVec.and_zero

theorem packXYN_and_ir (ir x y n : Nibble) : packXYN ir x y n &&& 0xF000 = packXYN ir 0 0 0 := by
  rw [show (0xF000 : Word) = packXYN 0xF 0 0 0 from rfl, and_packXYN, nibble_and_all,
    show x &&& 0 = 0 from BitVec.and_zero, show y &&& 0 = 0 from BitVec.and_zero, show n &&& 0 = 0 from BitVec.and_zero]

/-- The mask 0xF0FF keeps `ir` and NN. -/
theorem packXNN_and_minor (ir x : Nibble) (nn : Byte) : packXNN ir x nn &&& 0xF0FF = packXNN ir 0 nn := by
  rw [show (0xF0FF : Word) = packXNN 0xF 0 0xFF from rfl, and_packXNN, nibble_and_all, byte_and_all,
    show x &&& 0 = 0 from BitVec.and_zero]

/-- The mask 0xF00F keeps `ir` and N. -/
theorem packXYN_and_minor (ir x y n : Nibble) : packXYN ir x y n &&& 0xF00F = packXYN ir 0 0 n := by
  rw [show (0xF00F : Word) = packXYN 0xF 0 0 0xF from rfl, and_packXYN, nibble_and_all, nibble_and_all,
    show x &&& 0 = 0 from BitVec.and_zero, show y &&& 0 = 0 from BitVec.and_zero]

namespace Laws

/-- The row of the opcode map an instruction stands in selects its word. -/
def RowBits.Statement (i : Instr) : Prop :=
  ∃ r, opcodeMap[i.rowIndex]? = some r ∧ r.selects (encode i) = true

/-- Enough: the masked word is the row's pattern. -/
theorem RowBits.of_mask {i : Instr} (r : OpcodeRow) (hr : opcodeMap[i.rowIndex]? = some r)
    (h : encode i &&& r.mask = r.pattern) : RowBits.Statement i :=
  ⟨r, hr, by simp [OpcodeRow.selects, h]⟩

theorem RowBits.cls (x : Nibble) : RowBits.Statement (.cls x) :=
  RowBits.of_mask _ rfl (packXNN_and_minor _ _ _)

theorem RowBits.ret (x : Nibble) : RowBits.Statement (.ret x) :=
  RowBits.of_mask _ rfl (packXNN_and_minor _ _ _)

theorem RowBits.jp (nnn : Addr) : RowBits.Statement (.jp nnn) :=
  RowBits.of_mask _ rfl (packNNN_and_ir _ _)

theorem RowBits.call (nnn : Addr) : RowBits.Statement (.call nnn) :=
  RowBits.of_mask _ rfl (packNNN_and_ir _ _)

theorem RowBits.seByte (x : Reg) (nn : Byte) : RowBits.Statement (.seByte x nn) :=
  RowBits.of_mask _ rfl (packXNN_and_ir _ _ _)

theorem RowBits.sneByte (x : Reg) (nn : Byte) : RowBits.Statement (.sneByte x nn) :=
  RowBits.of_mask _ rfl (packXNN_and_ir _ _ _)

theorem RowBits.seReg (x y : Reg) (n : Nibble) : RowBits.Statement (.seReg x y n) :=
  RowBits.of_mask _ rfl (packXYN_and_ir _ _ _ _)

theorem RowBits.ldByte (x : Reg) (nn : Byte) : RowBits.Statement (.ldByte x nn) :=
  RowBits.of_mask _ rfl (packXNN_and_ir _ _ _)

theorem RowBits.addByte (x : Reg) (nn : Byte) : RowBits.Statement (.addByte x nn) :=
  RowBits.of_mask _ rfl (packXNN_and_ir _ _ _)

theorem RowBits.ldReg (x y : Reg) : RowBits.Statement (.ldReg x y) :=
  RowBits.of_mask _ rfl (packXYN_and_minor _ _ _ _)

theorem RowBits.orReg (x y : Reg) : RowBits.Statement (.orReg x y) :=
  RowBits.of_mask _ rfl (packXYN_and_minor _ _ _ _)

theorem RowBits.andReg (x y : Reg) : RowBits.Statement (.andReg x y) :=
  RowBits.of_mask _ rfl (packXYN_and_minor _ _ _ _)

theorem RowBits.xorReg (x y : Reg) : RowBits.Statement (.xorReg x y) :=
  RowBits.of_mask _ rfl (packXYN_and_minor _ _ _ _)

theorem RowBits.addReg (x y : Reg) : RowBits.Statement (.addReg x y) :=
  RowBits.of_mask _ rfl (packXYN_and_minor _ _ _ _)

theorem RowBits.subReg (x y : Reg) : RowBits.Statement (.subReg x y) :=
  RowBits.of_mask _ rfl (packXYN_and_minor _ _ _ _)

theorem RowBits.shl (x y : Reg) : RowBits.Statement (.shl x y) :=
  RowBits.of_mask _ rfl (packXYN_and_minor _ _ _ _)

theorem RowBits.subnReg (x y : Reg) : RowBits.Statement (.subnReg x y) :=
  RowBits.of_mask _ rfl (packXYN_and_minor _ _ _ _)

theorem RowBits.shr (x y : Reg) : RowBits.Statement (.shr x y) :=
  RowBits.of_mask _ rfl (packXYN_and_minor _ _ _ _)

theorem RowBits.sneReg (x y : Reg) (n : Nibble) : RowBits.Statement (.sneReg x y n) :=
  RowBits.of_mask _ rfl (packXYN_and_ir _ _ _ _)

theorem RowBits.ldI (nnn : Addr) : RowBits.Statement (.ldI nnn) :=
  RowBits.of_mask _ rfl (packNNN_and_ir _ _)

theorem RowBits.jpV0 (nnn : Addr) : RowBits.Statement (.jpV0 nnn) :=
  RowBits.of_mask _ rfl (packNNN_and_ir _ _)

theorem RowBits.rnd (x : Reg) (nn : Byte) : RowBits.Statement (.rnd x nn) :=
  RowBits.of_mask _ rfl (packXNN_and_ir _ _ _)

theorem RowBits.drw (x y : Reg) (n : Nibble) : RowBits.Statement (.drw x y n) :=
  RowBits.of_mask _ rfl (packXYN_and_ir _ _ _ _)

theorem RowBits.skp (x : Reg) : RowBits.Statement (.skp x) :=
  RowBits.of_mask _ rfl (packXNN_and_minor _ _ _)

theorem RowBits.sknp (x : Reg) : RowBits.Statement (.sknp x) :=
  RowBits.of_mask _ rfl (packXNN_and_minor _ _ _)

theorem RowBits.ldVxDT (x : Reg) : RowBits.Statement (.ldVxDT x) :=
  RowBits.of_mask _ rfl (packXNN_and_minor _ _ _)

theorem RowBits.ldVxK (x : Reg) : RowBits.Statement (.ldVxK x) :=
  RowBits.of_mask _ rfl (packXNN_and_minor _ _ _)

theorem RowBits.ldDTVx (x : Reg) : RowBits.Statement (.ldDTVx x) :=
  RowBits.of_mask _ rfl (packXNN_and_minor _ _ _)

theorem RowBits.ldSTVx (x : Reg) : RowBits.Statement (.ldSTVx x) :=
  RowBits.of_mask _ rfl (packXNN_and_minor _ _ _)

theorem RowBits.addI (x : Reg) : RowBits.Statement (.addI x) :=
  RowBits.of_mask _ rfl (packXNN_and_minor _ _ _)

theorem RowBits.ldF (x : Reg) : RowBits.Statement (.ldF x) :=
  RowBits.of_mask _ rfl (packXNN_and_minor _ _ _)

theorem RowBits.ldB (x : Reg) : RowBits.Statement (.ldB x) :=
  RowBits.of_mask _ rfl (packXNN_and_minor _ _ _)

theorem RowBits.storeRegs (x : Reg) : RowBits.Statement (.storeRegs x) :=
  RowBits.of_mask _ rfl (packXNN_and_minor _ _ _)

theorem RowBits.loadRegs (x : Reg) : RowBits.Statement (.loadRegs x) :=
  RowBits.of_mask _ rfl (packXNN_and_minor _ _ _)

end Laws

end Sys2Proof
end

