-- ==== Sys2Proof/Tests/Slice0.lean ====
section
/-! SUPPORT. Small tests. Expected values are those of spec/95_test_vectors.md or worked by hand from the rule named;
none was taken from the model's own answer. The last part holds a witness for every statement with hypotheses. -/

namespace Sys2Proof.Tests

open Sys2Proof.Machine

/-! ### WellFormed refuses what is not canonical -/

theorem test_wellFormed_refuses_cls : (Instr.cls 7).wellFormed = false := by decide
theorem test_wellFormed_refuses_ret : (Instr.ret 3).wellFormed = false := by decide
theorem test_wellFormed_refuses_seReg : (Instr.seReg 1 2 7).wellFormed = false := by decide
theorem test_wellFormed_refuses_sneReg : (Instr.sneReg 1 2 0xF).wellFormed = false := by decide
theorem test_wellFormed_accepts : (Instr.cls 0).wellFormed = true ∧ (Instr.ret 0).wellFormed = true ∧
    (Instr.seReg 1 2 0).wellFormed = true ∧ (Instr.sneReg 1 2 0).wellFormed = true := by decide

/-! ### Decoding: a word written out bit by bit, ir X Y N from the left, for every row of R76 -/

theorem test_decode_cls : decodeWord 0b0000000011100000 = some (.cls 0) := by decide
theorem test_decode_ret : decodeWord 0b0000000011101110 = some (.ret 0) := by decide
theorem test_decode_jp : decodeWord 0b0001101010111100 = some (.jp 0xABC) := by decide
theorem test_decode_call : decodeWord 0b0010001100000001 = some (.call 0x301) := by decide
theorem test_decode_seByte : decodeWord 0b0011101000000101 = some (.seByte 0xA 0x05) := by decide
theorem test_decode_sneByte : decodeWord 0b0100101000000111 = some (.sneByte 0xA 0x07) := by decide
theorem test_decode_seReg : decodeWord 0b0101000100100000 = some (.seReg 1 2 0) := by decide
theorem test_decode_ldByte : decodeWord 0b0110000000000101 = some (.ldByte 0 0x05) := by decide
theorem test_decode_addByte : decodeWord 0b0111000111111111 = some (.addByte 1 0xFF) := by decide
theorem test_decode_ldReg : decodeWord 0b1000101011110000 = some (.ldReg 0xA 0xF) := by decide
theorem test_decode_orReg : decodeWord 0b1000000100100001 = some (.orReg 1 2) := by decide
theorem test_decode_andReg : decodeWord 0b1000000100100010 = some (.andReg 1 2) := by decide
theorem test_decode_xorReg : decodeWord 0b1000000100100011 = some (.xorReg 1 2) := by decide
theorem test_decode_addReg : decodeWord 0b1000101010110100 = some (.addReg 0xA 0xB) := by decide
theorem test_decode_subReg : decodeWord 0b1000000000010101 = some (.subReg 0 1) := by decide
theorem test_decode_shl : decodeWord 0b1000001000110110 = some (.shl 2 3) := by decide
theorem test_decode_subnReg : decodeWord 0b1000000000010111 = some (.subnReg 0 1) := by decide
theorem test_decode_shr : decodeWord 0b1000001000111110 = some (.shr 2 3) := by decide
theorem test_decode_sneReg : decodeWord 0b1001000100100000 = some (.sneReg 1 2 0) := by decide
theorem test_decode_ldI : decodeWord 0b1010000100100011 = some (.ldI 0x123) := by decide
theorem test_decode_jpV0 : decodeWord 0b1011001100000000 = some (.jpV0 0x300) := by decide
theorem test_decode_rnd : decodeWord 0b1100000000001111 = some (.rnd 0 0x0F) := by decide
theorem test_decode_drw : decodeWord 0b1101000100100101 = some (.drw 1 2 5) := by decide
theorem test_decode_skp : decodeWord 0b1110001110011110 = some (.skp 3) := by decide
theorem test_decode_sknp : decodeWord 0b1110001110100001 = some (.sknp 3) := by decide
theorem test_decode_ldVxDT : decodeWord 0b1111000100000111 = some (.ldVxDT 1) := by decide
theorem test_decode_ldVxK : decodeWord 0b1111001000001010 = some (.ldVxK 2) := by decide
theorem test_decode_ldDTVx : decodeWord 0b1111000000010101 = some (.ldDTVx 0) := by decide
theorem test_decode_ldSTVx : decodeWord 0b1111001000011000 = some (.ldSTVx 2) := by decide
theorem test_decode_addI : decodeWord 0b1111001100011110 = some (.addI 3) := by decide
theorem test_decode_ldF : decodeWord 0b1111000000101001 = some (.ldF 0) := by decide
theorem test_decode_ldB : decodeWord 0b1111000000110011 = some (.ldB 0) := by decide
theorem test_decode_storeRegs : decodeWord 0b1111001001010101 = some (.storeRegs 2) := by decide
theorem test_decode_loadRegs : decodeWord 0b1111001001100101 = some (.loadRegs 2) := by decide

/-- The reserved words of 2.1. -/
theorem test_decode_reserved :
    ([0x0000, 0x00E1, 0x8128, 0x812F, 0xE09F, 0xF000, 0xF075] : List Word).map decodeWord =
      List.replicate 7 none := by decide

/-- R52: the byte at the lower address is the more significant one; the rest is given back (R71). -/
theorem test_decode_bytes : decode [0x60, 0x05, 0xA2] = .ok (.ldByte 0 0x05, [0xA2]) := by rfl
theorem test_decode_one_byte : decode [0x60] = .error .truncated := by rfl
theorem test_decode_table_word : decodeTableWord 16 0xF31E = some (.addI 3) := by decide
theorem test_encode_bytes : encodeBytes (.drw 1 2 5) = [0xD1, 0x25] := by decide

/-! ### One step of each instruction (2.2 - 2.7) -/

/-- Reset, with inputs laid down for one iteration: no key, no time. -/
def start : State := { State.reset with pending := [⟨0, 0, 0, 0⟩] }

/-- The default parameters but a finite stack, or a host that goes on after StackUnderflow. -/
def bounded (d : Nat) : Params := { Params.default with stackDepth := some d }
def goesOn : Params := { Params.default with continueAfterUnderflow := true }

/-- One step on the word `w`, stored at pc. -/
def run (w : Nat) (s : State) : Outcome := step (s.withFetchWord 16 w)

/-- The outcome is a next state with the property. -/
def goesTo (o : Outcome) (p : State → Bool) : Bool :=
  match o with
  | .next t => p t
  | .fault _ => false
  | .refused _ => false

/-- The outcome is a fault of that code and value, whose state has the property. -/
def stopsWith (o : Outcome) (code : ErrorCode) (value : Nat) (p : State → Bool) : Bool :=
  match o with
  | .fault f => f.code == code && f.value == value && f.left.report == ⟨code, value⟩ && f.left.faulted && p f.left
  | .next _ => false
  | .refused _ => false

/-- The pixels that are on, row by row, at most 8 columns of 4 rows from a corner: enough for these tests. -/
def lit (s : State) (ox oy : Nat) : List (Nat × Nat) :=
  (List.range 32).filterMap fun k =>
    if h : ox + k % 8 < 64 ∧ oy + k / 8 < 32 then
      if s.fb.pixel ⟨ox + k % 8, h.1⟩ ⟨oy + k / 8, h.2⟩ then some (ox + k % 8, oy + k / 8) else none
    else none

theorem test_cls : goesTo (run 0x00E0 (start.setFb (start.fb.setPixel 5 5 true)))
    (fun t => lit t 4 4 == [] && t.pc == 0x202) = true := by decide
theorem test_ret : goesTo (run 0x00EE (start.setStack [0x302, 0x202]))
    (fun t => t.pc == 0x302 && t.stack == [0x202]) = true := by decide
theorem test_ret_empty : stopsWith (run 0x00EE start) .stackUnderflow 0x200
    (fun t => t.pc == 0x202 && t.stack == []) = true := by decide
theorem test_jp : goesTo (run 0x1FFF start) (fun t => t.pc == 0xFFF) = true := by decide
theorem test_call : goesTo (run 0x2400 (start.setStack [0x202]))
    (fun t => t.pc == 0x400 && t.stack == [0x202, 0x202]) = true := by decide
theorem test_call_bound : stopsWith (run 0x2300 { start.setStack [0x302, 0x202] with params := bounded 2 })
    .stackOverflow 0x200 (fun t => t.pc == 0x202 && t.stack == [0x302, 0x202]) = true := by decide
theorem test_seByte_taken : goesTo (run 0x3005 (start.setReg 0 5)) (fun t => t.pc == 0x204) = true := by decide
theorem test_seByte_not_taken : goesTo (run 0x3005 (start.setReg 0 6)) (fun t => t.pc == 0x202) = true := by decide
theorem test_sneByte_taken : goesTo (run 0x4005 (start.setReg 0 6)) (fun t => t.pc == 0x204) = true := by decide
theorem test_sneByte_not_taken : goesTo (run 0x4005 (start.setReg 0 5)) (fun t => t.pc == 0x202) = true := by decide
theorem test_seReg_taken : goesTo (run 0x5120 ((start.setReg 1 9).setReg 2 9)) (fun t => t.pc == 0x204) = true := by
  decide
theorem test_seReg_not_taken : goesTo (run 0x5127 ((start.setReg 1 9).setReg 2 8)) (fun t => t.pc == 0x202) = true := by
  decide
theorem test_sneReg_taken : goesTo (run 0x9120 ((start.setReg 1 9).setReg 2 8)) (fun t => t.pc == 0x204) = true := by
  decide
theorem test_sneReg_not_taken : goesTo (run 0x9110 (start.setReg 1 9)) (fun t => t.pc == 0x202) = true := by decide
theorem test_jpV0 : goesTo (run 0xBFFF (start.setReg 0 0xFF)) (fun t => t.pc == 0x10FE) = true := by decide
theorem test_ldByte : goesTo (run 0x6005 start) (fun t => t.reg 0 == 5 && t.pc == 0x202) = true := by decide
theorem test_addByte : goesTo (run 0x7001 ((start.setReg 0 255).setReg VF 9))
    (fun t => t.reg 0 == 0 && t.reg VF == 9) = true := by decide
theorem test_ldReg : goesTo (run 0x8120 ((start.setReg 1 1).setReg 2 0xAB))
    (fun t => t.reg 1 == 0xAB && t.reg 2 == 0xAB) = true := by decide
theorem test_orReg : goesTo (run 0x8121 (((start.setReg 1 0x0F).setReg 2 0xF0).setReg VF 9))
    (fun t => t.reg 1 == 0xFF && t.reg VF == 9) = true := by decide
theorem test_andReg : goesTo (run 0x8122 ((start.setReg 1 0x3C).setReg 2 0x0F))
    (fun t => t.reg 1 == 0x0C && t.reg 2 == 0x0F) = true := by decide
theorem test_xorReg : goesTo (run 0x8123 ((start.setReg 1 0xFF).setReg 2 0x0F))
    (fun t => t.reg 1 == 0xF0 && t.reg 2 == 0x0F) = true := by decide
theorem test_addReg_carry : goesTo (run 0x8014 ((start.setReg 0 200).setReg 1 100))
    (fun t => t.reg 0 == 44 && t.reg VF == 1) = true := by decide
theorem test_addReg_vf : goesTo (run 0x8F14 ((start.setReg VF 1).setReg 1 2)) (fun t => t.reg VF == 0) = true := by
  decide
theorem test_subReg_equal : goesTo (run 0x8015 ((start.setReg 0 5).setReg 1 5))
    (fun t => t.reg 0 == 0 && t.reg VF == 0) = true := by decide
theorem test_subReg_vf : goesTo (run 0x80F5 ((start.setReg 0 10).setReg VF 3))
    (fun t => t.reg 0 == 9 && t.reg VF == 1) = true := by decide
theorem test_shl : goesTo (run 0x8236 ((start.setReg 2 0x81).setReg 3 0x55))
    (fun t => t.reg 2 == 0x02 && t.reg 3 == 0x55 && t.reg VF == 1) = true := by decide
theorem test_shl_vf : goesTo (run 0x8F06 (start.setReg VF 0x80)) (fun t => t.reg VF == 2) = true := by decide
theorem test_subnReg : goesTo (run 0x8017 ((start.setReg 0 10).setReg 1 3))
    (fun t => t.reg 0 == 249 && t.reg VF == 0) = true := by decide
theorem test_subnReg_vf : goesTo (run 0x80F7 ((start.setReg 0 3).setReg VF 10))
    (fun t => t.reg 0 == 254 && t.reg VF == 1) = true := by decide
theorem test_shr : goesTo (run 0x820E (start.setReg 2 0x03)) (fun t => t.reg 2 == 0x01 && t.reg VF == 1) = true := by
  decide
theorem test_shr_vf : goesTo (run 0x8F0E (start.setReg VF 3)) (fun t => t.reg VF == 0) = true := by decide
theorem test_ldI : goesTo (run 0xAFFF start) (fun t => t.I == 0xFFF) = true := by decide
theorem test_rnd : goesTo (run 0xC00F { start with pending := [⟨0, 0, 0xA7, 0⟩] }) (fun t => t.reg 0 == 0x07) = true := by
  decide
theorem test_drw : goesTo (run 0xD011 (((start.setReg 0 60).setI 0x300).writeByte 0x300 0xFF))
    (fun t => lit t 56 0 == [(60, 0), (61, 0), (62, 0), (63, 0)] && lit t 0 0 == [] && t.reg VF == 0) = true := by decide
theorem test_drw_collides : goesTo
    (run 0xD011 (((start.setI 0x300).writeByte 0x300 0xC0).setFb (start.fb.setPixel 1 0 true)))
    (fun t => lit t 0 0 == [(0, 0)] && t.reg VF == 1) = true := by decide
theorem test_skp : goesTo (run 0xE09E ({ start with pending := [⟨0x0020, 5, 0, 0⟩] }.setReg 0 5))
    (fun t => t.pc == 0x204) = true := by decide
theorem test_skp_sixteen : stopsWith (run 0xE09E (start.setReg 0 16)) .keyIndexOutOfRange 16
    (fun t => t.pc == 0x202) = true := by decide
theorem test_sknp : goesTo (run 0xE0A1 (start.setReg 0 5)) (fun t => t.pc == 0x204) = true := by decide
theorem test_sknp_down : goesTo (run 0xE0A1 ({ start with pending := [⟨0x0020, 5, 0, 0⟩] }.setReg 0 5))
    (fun t => t.pc == 0x202) = true := by decide
theorem test_ldVxDT : goesTo (run 0xF107 (start.setDT 2)) (fun t => t.reg 1 == 2 && t.dt == 2) = true := by decide
theorem test_ldVxK : goesTo (run 0xF20A { start with pending := [⟨0x0088, 3, 0, 0⟩] })
    (fun t => t.reg 2 == 3 && t.pc == 0x202) = true := by decide
theorem test_ldVxK_waits : goesTo (run 0xF20A (start.setReg 2 9)) (fun t => t.reg 2 == 9 && t.pc == 0x200) = true := by
  decide
theorem test_ldDTVx : goesTo (run 0xF015 (start.setReg 0 3)) (fun t => t.dt == 3 && t.st == 0) = true := by decide
theorem test_ldSTVx : goesTo (run 0xF218 (start.setReg 2 10)) (fun t => t.st == 10 && t.dt == 0) = true := by decide
theorem test_addI_wraps : goesTo (run 0xF01E ((start.setI 0xFFE).setReg 0 5))
    (fun t => t.I == 0x003 && t.reg VF == 1 && t.report == ⟨.addressOverflow, 0x1003⟩ && !t.faulted) = true := by decide
theorem test_addI_vf : goesTo (run 0xFF1E ((start.setI 0x100).setReg VF 5))
    (fun t => t.I == 0x105 && t.reg VF == 0 && t.report == .clear) = true := by decide
theorem test_ldF : goesTo (run 0xF029 (start.setReg 0 0xFF)) (fun t => t.I == 0x04B) = true := by decide
theorem test_ldB : goesTo (run 0xF033 ((start.setI 0x300).setReg 0 234))
    (fun t => t.byte 0x300 == 2 && t.byte 0x301 == 3 && t.byte 0x302 == 4 && t.I == 0x300) = true := by decide
theorem test_ldB_over : stopsWith (run 0xF033 (start.setI 0xFFE)) .memOutOfRange 0x1000
    (fun t => t.pc == 0x202 && t.I == 0xFFE) = true := by decide
theorem test_storeRegs : goesTo (run 0xF255 ((((start.setI 0x300).setReg 0 1).setReg 1 2).setReg 2 3))
    (fun t => t.byte 0x300 == 1 && t.byte 0x301 == 2 && t.byte 0x302 == 3 && t.I == 0x300) = true := by decide
theorem test_storeRegs_over : stopsWith (run 0xFF55 (start.setI 0xFF1)) .memOutOfRange 0x1000
    (fun t => t.pc == 0x202) = true := by decide
/-- The glyph bytes of R58: digit 0 from address 0. -/
theorem test_loadRegs : goesTo (run 0xF265 (start.setReg 3 9))
    (fun t => t.reg 0 == 0xF0 && t.reg 1 == 0x90 && t.reg 2 == 0x90 && t.reg 3 == 9 && t.I == 0) = true := by decide
theorem test_loadRegs_over : stopsWith (run 0xF165 (start.setI 0xFFF)) .memOutOfRange 0x1000
    (fun t => t.reg 0 == 0) = true := by decide

/-! ### The timer unit and the divider (2.7, 2.9) -/

theorem test_tick : (((start.setDT 255).setST 1).tick.dt, ((start.setDT 255).setST 1).tick.st,
    ((start.setDT 0).setST 2).tick.dt, ((start.setDT 0).setST 2).tick.st) = ((254, 0, 0, 1) : Byte × Byte × Byte × Byte) := by
  decide
/-- The period is 50000000: exactly one period does not fire, more does and keeps the remainder. -/
theorem test_divider_strict : (((start.setDT 9).setInput ⟨0, 0, 0, 50000000⟩).accrue.dt,
    ((start.setDT 9).setInput ⟨0, 0, 0, 50000000⟩).accrue.acc) = ((9, 50000000) : Byte × Nat) := by decide
theorem test_divider_fires : ((((start.setDT 9).setAcc 45000000).setInput ⟨0, 0, 0, 7500000⟩).accrue.dt,
    (((start.setDT 9).setAcc 45000000).setInput ⟨0, 0, 0, 7500000⟩).accrue.acc) = ((8, 2500000) : Byte × Nat) := by
  decide

/-! ### Witnesses: for each statement with hypotheses, states and operands that meet all of them -/

/-- pc just after a word fetched at 0x200: where a meaning finds it. -/
def ready : State := State.reset.setPc 0x202

/-- The state holds this word at pc. -/
def withWord (pc : Word) (w : Nat) : State := (State.reset.setPc pc).withFetchWord 16 w

/-- StepRunsTheDecodedInstruction, at the last address a fetch may have: next, and (RET at reset) fault. -/
theorem test_witness_step : (withWord 0xFFE 0x6005).pc.toNat ≤ 0xFFE ∧
    decodeWord (wordOfBytes ((withWord 0xFFE 0x6005).byte 0xFFE) ((withWord 0xFFE 0x6005).byte 0xFFF)) =
      some (.ldByte 0 5) ∧
    goesTo (exec (.ldByte 0 5) ((withWord 0xFFE 0x6005).poll.setPc 0x1000)) (fun _ => true) = true := by decide
theorem test_witness_step_fault :
    decodeWord (wordOfBytes ((withWord 0x200 0x00EE).byte 0x200) ((withWord 0x200 0x00EE).byte 0x201)) = some (.ret 0) ∧
    stopsWith (exec (.ret 0) ((withWord 0x200 0x00EE).poll.setPc 0x202)) .stackUnderflow 0x200 (fun _ => true) = true := by
  decide

theorem test_witness_decode : decodeWord 0x07E0 = some (.cls 7) ∧ encode (.cls 7) = 0x07E0 := by decide

/-- PollChangesTheInputsAndTheReport, both clauses. -/
theorem test_witness_poll : start.pending = ⟨0, 0, 0, 0⟩ :: [] ∧ State.reset.pending = [] := by decide

/-- FetchAboveMemoryFaults at 0xFFF and at the largest pc. -/
theorem test_witness_fetch : 0xFFE < (ready.setPc 0xFFF).pc.toNat ∧ 0xFFE < (ready.setPc 0x10FE).pc.toNat ∧
    stopsWith (step (ready.setPc 0xFFF)) .fetchOutOfRange 0xFFF (fun t => t.pc == 0xFFF) = true := by decide

/-- ReservedWordFaultsAfterTheAdvance, at the last address a fetch may have. -/
theorem test_witness_reserved : (withWord 0xFFE 0x812F).pc.toNat ≤ 0xFFE ∧
    decodeWord ((withWord 0xFFE 0x812F).wordAt 0xFFE) = none ∧
    stopsWith (step (withWord 0xFFE 0x812F)) .reservedOpcode 0x812F (fun t => t.pc == 0x1000) = true := by decide

theorem test_witness_stored_word : (State.reset.setPc 0xFFE).pc.toNat ≤ 0xFFE := by decide

/-- StoredRegistersAreFetched: F155 at the address of the next word stores the word 6005 there. -/
theorem test_witness_stored_registers : 0 + 1 ≤ (1 : Reg).val ∧
    goesTo (exec (.storeRegs 1) (((ready.setI 0x202).setReg 0 0x60).setReg 1 0x05))
      (fun t => t.wordAt 0x202 == 0x6005) = true := by decide

/-- LoadCopiesTheProgram: a program that fits, the longest that does, the shortest that does not. -/
theorem test_witness_load : goesTo (loadProgram [0x60, 0x05] State.reset)
    (fun t => t.byte 0x200 == 0x60 && t.byte 0x201 == 0x05) = true := by decide
theorem test_witness_load_longest : (List.replicate 3584 (0 : Byte)).length ≤ 3584 :=
  le_of_eq List.length_replicate
theorem test_witness_load_refused : loadProgram (List.replicate 3585 (0 : Byte)) State.reset =
    .refused (.programTooLarge 3585) := by
  simp only [loadProgram, List.length_replicate]; rfl

/-- R5, R218: another GLYPH_ROM is what the glyph region reads as, until it is written. -/
def otherGlyphs : Params := { Params.default with glyphRom := Vector.replicate 80 0x3C }
theorem test_other_glyphs : (State.resetWith otherGlyphs).byte 0x4F = 0x3C ∧ State.reset.byte 0x4F = 0x80 ∧
    ((State.resetWith otherGlyphs).writeByte 0x4F 0x80).byte 0x4F = 0x80 ∧
    ((State.resetWith otherGlyphs).writeByte 0x4F 0x3C).mem = [] := by decide
/-- LoadCopiesTheProgram, the launch of a program under these parameters. -/
theorem test_witness_launch : goesTo (launch otherGlyphs [0x60, 0x05])
    (fun t => t.byte 0 == 0x3C && t.byte 0x201 == 0x05 && t.params.glyphRom == otherGlyphs.glyphRom) = true := by decide

/-- CallPushesTheReturnAddress: no bound, and one below a bound. CallAtTheBoundFaults: at it. -/
theorem test_witness_call : (∀ d, ready.params.stackDepth = some d → ready.stack.length ≠ d) := by
  intro d h; cases h
theorem test_witness_call_below :
    ∀ d, ({ ready with params := bounded 1 } : State).params.stackDepth = some d →
      ({ ready with params := bounded 1 } : State).stack.length ≠ d := by
  intro d h; cases h; decide
theorem test_witness_call_bound :
    ({ ready.setStack [0x202] with params := bounded 1 } : State).params.stackDepth = some 1 ∧
      ({ ready.setStack [0x202] with params := bounded 1 } : State).stack.length = 1 := by decide

/-- ReturnPopsTheNewestEntry; ReturnOnEmptyStackUnderflows, a host that halts and one that goes on. -/
theorem test_witness_ret : (ready.setStack [0x250]).stack = 0x250 :: [] := by decide
theorem test_witness_ret_empty : ready.stack = [] ∧ ready.params.continueAfterUnderflow = false := by decide
theorem test_witness_ret_goes_on :
    goesTo (exec (.ret 0) { ready with params := goesOn })
      (fun t => t.pc == 0x202 && t.stack == [] && t.faulted && t.report == ⟨.stackUnderflow, 0x200⟩) = true := by decide

/-- ReturnUndoesCall. -/
theorem test_witness_call_return : goesTo (exec (.call 0x210) ready)
    (fun t => goesTo (exec (.ret 0) (t.setPc 0x212)) (fun u => u.pc == 0x202 && u.stack == [])) = true := by decide

/-- DecimalDigitsAreStored, RegistersAreStored, RegistersAreLoaded at the top of memory; AccessAboveMemoryFaults one above,
for each of its four forms; LoadAfterStoreIsIdentity. -/
theorem test_witness_digits : (ready.setI 0xFFD).I.toNat + 2 ≤ 0xFFF ∧ 0xFFF < (ready.setI 0xFFE).I.toNat + 2 := by decide
theorem test_witness_block : (ready.setI 0xFF0).I.toNat + (15 : Reg).val ≤ 0xFFF ∧
    0xFFF < (ready.setI 0xFF1).I.toNat + (15 : Reg).val := by decide
theorem test_witness_block_stored : goesTo (exec (.storeRegs 2) ((ready.setI 0xFFD).setReg 2 7))
    (fun t => goesTo (exec (.loadRegs 2) t) (fun u => u.reg 0 == 0 && u.reg 2 == 7)) = true := by decide
theorem test_witness_drw_over : (2 : Nat) = min (2 : Nibble).toNat (32 - (ready.reg 1).toNat % 32) ∧
    0xFFF < (ready.setI 0xFFF).I.toNat + 2 - 1 ∧
    stopsWith (exec (.drw 0 1 2) (ready.setI 0xFFF)) .memOutOfRange 0x1000 (fun t => t.pc == 0x202) = true := by decide

/-- DrawIsPixelwiseXor: no row; the last byte of memory, the row below clipped (2.5). DrawingTwiceRestores. -/
theorem test_witness_drw_none : (0 : Nat) = min (0 : Nibble).toNat (32 - 0) ∧
    goesTo (exec (.drw 0 1 0) (ready.setReg VF 1)) (fun t => t.reg VF == 0 && lit t 0 0 == []) = true := by decide
theorem test_witness_drw_clipped : (1 : Nat) = min (2 : Nibble).toNat (32 - 31) ∧
    (ready.setI 0xFFF).I.toNat + 1 - 1 ≤ 0xFFF ∧
    goesTo (exec (.drw 0 1 2) (((ready.setReg 1 31).setI 0xFFF).writeByte 0xFFF 0x80))
      (fun t => lit t 0 28 == [(0, 31)] && lit t 0 0 == [] && t.reg VF == 0) = true := by decide
theorem test_witness_drw_twice : (0 : Reg) ≠ VF ∧ (1 : Reg) ≠ VF ∧
    goesTo (exec (.drw 0 1 1) ((ready.setI 0x300).writeByte 0x300 0x80))
      (fun t => lit t 0 0 == [(0, 0)] && goesTo (exec (.drw 0 1 1) t)
        (fun u => lit u 0 0 == [] && u.reg VF == 1)) = true := by decide

/-- KeySkips at 0 and 15; KeyNumberAboveFifteenFaults at 16; WaitForKey, key 15 down and none. -/
theorem test_witness_key : ((ready.setReg 0 0).reg 0).toNat ≤ 15 ∧ ((ready.setReg 0 15).reg 0).toNat ≤ 15 ∧
    15 < ((ready.setReg 0 16).reg 0).toNat := by decide
theorem test_witness_wait : (∃ k < 16, (ready.setInput ⟨0x8000, 15, 0, 0⟩).input.keyDown.getLsbD k = true) ∧
    ∀ k < 16, ready.input.keyDown.getLsbD k = false := by decide

/-- TickDecrementsNonzeroCounters: each counter nonzero and zero. -/
theorem test_witness_tick : 0 < (ready.setDT 1).dt.toNat ∧ ready.dt.toNat = 0 ∧ 0 < (ready.setST 255).st.toNat ∧
    ready.st.toNat = 0 := by decide

/-- DividerAccountsForTheTime: acc at one period, an iteration of exactly one. -/
theorem test_witness_divider : (ready.setAcc 50000000).acc ≤ tickPeriod ∧
    ∀ h ∈ ([⟨0, 0, 0, 50000000⟩] : List HostInput), h.elapsed ≤ tickPeriod := by decide

/-- The frames: an instruction, the register, byte or state it does not write, and a next state. -/
theorem test_witness_frame : writesReg (.ldB 0) VF = false ∧ writesReg (.addReg 0 1) 1 = false ∧
    writesReg (.loadRegs 14) VF = false ∧ writesI (.storeRegs 3) = false ∧ writesStack (.jp 0) = false ∧
    writesDT (.ldVxDT 0) = false ∧ writesST (.ldDTVx 0) = false ∧ writesFb (.ldF 0) = false ∧ movesPc (.cls 0) = false ∧
    goesTo (exec (.ldB 0) ready) (fun _ => true) = true := by decide
theorem test_witness_frame_memory : ¬storesTo (.ldB 0) (ready.setI 0x300) 0x303 ∧
    ¬storesTo (.ldB 0) (ready.setI 0x300) 0x2FF ∧ ¬storesTo (.storeRegs 0) (ready.setI 0x300) 0x301 ∧
    ¬storesTo (.addI 0) ready 0x300 := by simp only [storesTo]; decide

/-- PcAfterEachInstruction: a next state of each named form is in the tests of the step above; here the wait. -/
theorem test_witness_pc : goesTo (exec (.ldVxK 0) ready) (fun t => t.pc == 0x200 && !ready.anyKeyDown) = true := by decide

/-- StepKeepsTheInvariant. -/
theorem test_witness_invariant : (start.withFetchWord 16 0x2300).Inv ∧
    goesTo (step (start.withFetchWord 16 0x2300)) (fun t => t.stack == [0x202]) = true := by decide

/-- FaultMarkIsSticky: a marked state goes on, and a step that marks. -/
theorem test_witness_mark : goesTo (run 0x6005 start.setFaulted) (fun t => t.faulted) = true ∧
    goesTo (run 0x00EE { start with params := goesOn }) (fun t => !start.faulted && t.faulted) = true := by decide

/-- ReportsAreExact: a fault, and the two reports of a next state, are in the tests above. -/
theorem test_witness_reports : stopsWith (exec (.skp 0) (ready.setReg 0 16)) (mayRaise (.skp 0)) 16 (fun _ => true) = true := by
  decide

/-- UnreadStateDoesNotInterfere: an instruction for each clause. -/
theorem test_witness_unread : writesST (.cls 0) = false ∧ writesST (.ldSTVx 0) = true ∧ readsDT (.cls 0) = false ∧
    writesDT (.cls 0) = false ∧ writesDT (.ldDTVx 0) = true ∧ readsRnd (.skp 0) = false ∧ readsKeys (.rnd 0 0) = false := by
  decide

/-- FinalStateStays: 1200 at 0x200, and 1FFE at 0xFFE. -/
theorem test_witness_final : (withWord 0x200 0x1200).final = true ∧ (withWord 0xFFE 0x1FFE).final = true := by decide

end Sys2Proof.Tests
end

section
/-! SUPPORT. The frame of every instruction (spec/10_state.md R21 - R36): one rule per update of the state, and one
case split over the instructions; what each statement about a frame needs is a projection of `exec_frame`. -/

namespace Sys2Proof.Machine

/-! ### What a RET and a CALL that complete have done -/

/-- RET pops, or, on an empty stack and a host that goes on, only reports and marks (R100, R170). -/
theorem execRet_next {s t : State} (h : execRet s = .next t) :
    (s.stack = [] ∧ t = s.markFault .stackUnderflow s.fetchedFrom) ∨
      ∃ a rest, s.stack = a :: rest ∧ t = (s.setStack rest).setPc a := by
  unfold execRet at h
  split at h
  · next e => exact .inl ⟨e, (stackUnderflow_next h).2⟩
  · next a rest e => cases h; exact .inr ⟨a, rest, e, rfl⟩

/-- A CALL that completes found room on the stack (R102, R177). -/
theorem execCall_next {nnn : Addr} {s t : State} (h : execCall nnn s = .next t) :
    s.stackFull = false ∧ t = (s.push s.pc).setPc (absolute nnn) := by
  unfold execCall at h
  split at h
  · cases h
  · next hf => cases h; exact ⟨by simpa using hf, rfl⟩

/-! ### The frame and its rules -/

/-- FX33 and FX55 store to memory, no other (R51); tied to the table of stored bytes by `storesTo_writesMem`. -/
def writesMem : Instr → Bool
  | .ldB _ | .storeRegs _ => true
  | _ => false

theorem storesTo_writesMem {i : Instr} {s : State} {a : Nat} (h : storesTo i s a) : writesMem i = true := by
  cases i with
  | ldB => rfl
  | storeRegs => rfl
  | _ => exact h.elim

/-- From `s` to `t` nothing has changed but what the spec's tables let `i` write. -/
structure Frame (i : Instr) (s t : State) : Prop where
  reg : ∀ r, writesReg i r = false → t.reg r = s.reg r
  I : writesI i = false → t.I = s.I
  pc : movesPc i = false → t.pc = s.pc
  stack : writesStack i = false → t.stack = s.stack
  dt : writesDT i = false → t.dt = s.dt
  st : writesST i = false → t.st = s.st
  fb : writesFb i = false → t.fb = s.fb
  mem : writesMem i = false → t.mem = s.mem
  acc : t.acc = s.acc
  input : t.input = s.input
  pending : t.pending = s.pending
  iteration : t.iteration = s.iteration
  params : t.params = s.params

namespace Frame

variable {i : Instr} {s t u : State}

theorem refl (i : Instr) (s : State) : Frame i s s where
  reg _ _ := rfl
  I _ := rfl
  pc _ := rfl
  stack _ := rfl
  dt _ := rfl
  st _ := rfl
  fb _ := rfl
  mem _ := rfl
  acc := rfl
  input := rfl
  pending := rfl
  iteration := rfl
  params := rfl

theorem trans (h : Frame i s u) (k : Frame i u t) : Frame i s t where
  reg r hr := (k.reg r hr).trans (h.reg r hr)
  I hi := (k.I hi).trans (h.I hi)
  pc hi := (k.pc hi).trans (h.pc hi)
  stack hi := (k.stack hi).trans (h.stack hi)
  dt hi := (k.dt hi).trans (h.dt hi)
  st hi := (k.st hi).trans (h.st hi)
  fb hi := (k.fb hi).trans (h.fb hi)
  mem hi := (k.mem hi).trans (h.mem hi)
  acc := k.acc.trans h.acc
  input := k.input.trans h.input
  pending := k.pending.trans h.pending
  iteration := k.iteration.trans h.iteration
  params := k.params.trans h.params

/-! ### One rule per update -/

theorem setReg {x : Reg} (b : Byte) (hx : writesReg i x = true) : Frame i s (s.setReg x b) :=
  { refl i s with
    reg := fun r hr => State.reg_setReg_of_ne s b (by rintro rfl; simp [hx] at hr) }

/-- Two registers written, one of them the flag in most instructions that do so (R21). -/
theorem setReg_setReg {x y : Reg} (b c : Byte) (hx : writesReg i x = true) (hy : writesReg i y = true) :
    Frame i s ((s.setReg x b).setReg y c) := (setReg b hx).trans (setReg c hy)

theorem setI (w : Word) (hi : writesI i = true) : Frame i s (s.setI w) :=
  { refl i s with I := fun h => by simp [hi] at h }

theorem setPc (w : Word) (hi : movesPc i = true) : Frame i s (s.setPc w) :=
  { refl i s with pc := fun h => by simp [hi] at h }

theorem setStack (l : List Word) (hi : writesStack i = true) : Frame i s (s.setStack l) :=
  { refl i s with stack := fun h => by simp [hi] at h }

theorem setDT (b : Byte) (hi : writesDT i = true) : Frame i s (s.setDT b) :=
  { refl i s with dt := fun h => by simp [hi] at h }

theorem setST (b : Byte) (hi : writesST i = true) : Frame i s (s.setST b) :=
  { refl i s with st := fun h => by simp [hi] at h }

theorem setFb (fb : Framebuffer) (hi : writesFb i = true) : Frame i s (s.setFb fb) :=
  { refl i s with fb := fun h => by simp [hi] at h }

theorem setMem (m : Memory) (hi : writesMem i = true) : Frame i s (s.setMem m) :=
  { refl i s with mem := fun h => by simp [hi] at h }

theorem setReport (r : Report) : Frame i s (s.setReport r) := { refl i s with }

theorem setFaulted : Frame i s s.setFaulted := { refl i s with }

theorem loadRegs (x : Reg) (s : State) : Frame (.loadRegs x) s (loadBlock (x + 1) s) := by
  rw [loadBlock_eq]
  exact { refl (.loadRegs x) s with
    reg := fun r hr => by
      have hlt : x.val < r.val := by simpa [writesReg] using hr
      exact (loadBlock_reg (x + 1) s x.isLt r).trans (if_neg (by omega)) }

end Frame

/-- An instruction that gives a next state changes nothing but what the spec's tables let it write (decision D25). -/
theorem exec_frame {i : Instr} {s t : State} (h : exec i s = .next t) : Frame i s t := by
  cases i with
  | cls => cases h; exact .setFb _ rfl
  | ret =>
    rcases execRet_next h with ⟨-, rfl⟩ | ⟨a, rest, -, rfl⟩
    · exact (Frame.setReport _).trans .setFaulted
    · exact (Frame.setStack _ rfl).trans (.setPc _ rfl)
  | jp => cases h; exact .setPc _ rfl
  | call => obtain ⟨-, rfl⟩ := execCall_next h; exact (Frame.setStack _ rfl).trans (.setPc _ rfl)
  | seByte => cases h; exact .setPc _ rfl
  | sneByte => cases h; exact .setPc _ rfl
  | seReg => cases h; exact .setPc _ rfl
  | sneReg => cases h; exact .setPc _ rfl
  | jpV0 => cases h; exact .setPc _ rfl
  | ldByte => cases h; exact .setReg _ (by simp [writesReg])
  | addByte => cases h; exact .setReg _ (by simp [writesReg])
  | ldReg => cases h; exact .setReg _ (by simp [writesReg])
  | orReg => cases h; exact .setReg _ (by simp [writesReg])
  | andReg => cases h; exact .setReg _ (by simp [writesReg])
  | xorReg => cases h; exact .setReg _ (by simp [writesReg])
  | rnd => cases h; exact .setReg _ (by simp [writesReg])
  | ldVxDT => cases h; exact .setReg _ (by simp [writesReg])
  | addReg => cases h; exact .setReg_setReg _ _ (by simp [writesReg]) (by simp [writesReg, VF])
  | subReg => cases h; exact .setReg_setReg _ _ (by simp [writesReg, VF]) (by simp [writesReg])
  | shl => cases h; exact .setReg_setReg _ _ (by simp [writesReg, VF]) (by simp [writesReg])
  | subnReg => cases h; exact .setReg_setReg _ _ (by simp [writesReg, VF]) (by simp [writesReg])
  | shr => cases h; exact .setReg_setReg _ _ (by simp [writesReg, VF]) (by simp [writesReg])
  | ldI => cases h; exact .setI _ rfl
  | ldF => cases h; exact .setI _ rfl
  | addI x =>
    cases h
    have sum (w : Word) (b : Byte) : Frame (.addI x) s ((s.setI w).setReg VF b) :=
      (Frame.setI w rfl).trans (.setReg b (by simp [writesReg, VF]))
    split
    · exact (sum _ _).trans (.setReport _)
    · exact sum _ _
  | drw =>
    obtain ⟨-, rfl⟩ := withinMemory_next h
    exact (Frame.setReg _ (by simp [writesReg, VF])).trans (.setFb _ rfl)
  | skp => obtain ⟨-, rfl⟩ := withKey_next h; exact .setPc _ rfl
  | sknp => obtain ⟨-, rfl⟩ := withKey_next h; exact .setPc _ rfl
  | ldVxK =>
    cases h
    split
    · exact .setReg _ (by simp [writesReg])
    · exact .setPc _ rfl
  | ldDTVx => cases h; exact .setDT _ rfl
  | ldSTVx => cases h; exact .setST _ rfl
  | ldB =>
    obtain ⟨-, rfl⟩ := withinMemory_next h
    exact ((Frame.setMem _ rfl).trans (.setMem _ rfl)).trans (.setMem _ rfl)
  | storeRegs =>
    obtain ⟨-, rfl⟩ := withinMemory_next h
    rw [storeBlock_eq]
    exact .setMem _ rfl
  | loadRegs x => obtain ⟨-, rfl⟩ := withinMemory_next h; exact .loadRegs x s

/-- Settles O51: the register clause of the frame. -/
theorem onlyTheNamedRegistersAreWritten : Obligations.OnlyTheNamedRegistersAreWritten :=
  fun _ _ _ h => (exec_frame h).reg

/-- Settles O53: the other clauses of the frame. -/
theorem specialStateIsWrittenByItsOwnersOnly : Obligations.SpecialStateIsWrittenByItsOwnersOnly := by
  intro i s t h
  have f := exec_frame h
  exact ⟨f.I, f.stack, f.dt, f.st, f.fb, f.acc, f.input, f.pending, f.iteration, f.params⟩

end Sys2Proof.Machine
end

section
/-! SUPPORT. Where an instruction leaves pc: the table of R25 as one function of the state the instruction runs in. -/

namespace Sys2Proof.Machine

/-- pc after an instruction that completes (R25), with `s.pc` the address of the following one. -/
def pcAfter : Instr → State → Word
  | .jp nnn, _ | .call nnn, _ => absolute nnn
  | .jpV0 nnn, s     => offsetByV0 s nnn
  | .ret _, s        => s.stack.headD s.pc
  | .seByte x nn, s  => if s.reg x = nn then s.pc + 2 else s.pc
  | .sneByte x nn, s => if s.reg x ≠ nn then s.pc + 2 else s.pc
  | .seReg x y _, s  => if s.reg x = s.reg y then s.pc + 2 else s.pc
  | .sneReg x y _, s => if s.reg x ≠ s.reg y then s.pc + 2 else s.pc
  | .skp x, s        => if s.keyDown (s.reg x).toNat = true then s.pc + 2 else s.pc
  | .sknp x, s       => if s.keyDown (s.reg x).toNat = false then s.pc + 2 else s.pc
  | .ldVxK _, s      => if s.anyKeyDown = true then s.pc else s.pc - 2
  | _, s             => s.pc

theorem toNat_absolute (nnn : Addr) : (absolute nnn).toNat = nnn.toNat := by
  have := nnn.isLt
  rw [absolute, BitVec.toNat_setWidth]; omega

/-- The sum of R107 fits in 16 bits. -/
theorem toNat_offsetByV0 (s : State) (nnn : Addr) : (offsetByV0 s nnn).toNat = (s.reg 0).toNat + nnn.toNat := by
  have := nnn.isLt
  have := (s.reg 0).isLt
  rw [offsetByV0, BitVec.toNat_add, BitVec.toNat_setWidth, BitVec.toNat_setWidth]; omega

/-- RET leaves the newest stacked address in pc, and pc as it was where none is stacked (R100). -/
theorem execRet_pc {s t : State} (h : execRet s = .next t) : t.pc = s.stack.headD s.pc := by
  rcases execRet_next h with ⟨e, rfl⟩ | ⟨a, rest, e, rfl⟩
  · rw [e]; rfl
  · rw [e]; rfl

/-- The table of R25 holds of every instruction that gives a next state. -/
theorem exec_pc {i : Instr} {s t : State} (h : exec i s = .next t) : t.pc = pcAfter i s := by
  cases i with
  | jp => cases h; rfl
  | call => obtain ⟨-, rfl⟩ := execCall_next h; rfl
  | jpV0 => cases h; rfl
  | ret => exact execRet_pc h
  | seByte => cases h; simp [pcAfter]
  | sneByte => cases h; simp [pcAfter]
  | seReg => cases h; simp [pcAfter]
  | sneReg => cases h; simp [pcAfter]
  | skp => obtain ⟨-, rfl⟩ := withKey_next h; rfl
  | sknp => obtain ⟨-, rfl⟩ := withKey_next h; simp [pcAfter]
  | ldVxK => cases h; simp only [pcAfter]; split <;> rfl
  | _ => exact (exec_frame h).pc rfl

/-- Settles O54: the clauses are the rows of `pcAfter`. -/
theorem pcAfterEachInstruction : Obligations.PcAfterEachInstruction := by
  intro i s t h
  have hpc := exec_pc h
  refine ⟨(exec_frame h).pc, ?_, ?_, ?_, ?_, ?_, ?_, ?_, ?_, ?_, ?_⟩
  · rintro nnn (rfl | rfl) <;> exact (congrArg BitVec.toNat hpc).trans (toNat_absolute nnn)
  · rintro nnn rfl; exact (congrArg BitVec.toNat hpc).trans (toNat_offsetByV0 s nnn)
  · rintro x rfl; exact hpc
  · rintro x nn rfl; exact hpc
  · rintro x nn rfl; exact hpc
  · rintro x y n rfl; exact hpc
  · rintro x y n rfl; exact hpc
  · rintro x rfl; exact hpc
  · rintro x rfl; exact hpc
  · rintro x rfl; exact hpc

end Sys2Proof.Machine
end

section
/-! SUPPORT. The invariant (spec/10_state.md R23, R24, R27, R28, R37): it holds after reset, and every step keeps it.
Between fetch and end of the instruction pc is past the word, so it is at least 2 and at most 0x1000. -/

namespace Sys2Proof.Machine

theorem State.stackWithinBound_iff (s : State) :
    s.stackWithinBound = true ↔ ∀ d, s.params.stackDepth = some d → s.stack.length ≤ d := by
  unfold State.stackWithinBound
  split <;> simp_all

theorem State.stackFull_eq_false_iff (s : State) :
    s.stackFull = false ↔ ∀ d, s.params.stackDepth = some d → s.stack.length ≠ d := by
  unfold State.stackFull
  split <;> simp_all

/-! ### Reset -/

theorem State.resetWith_inv (prm : Params) : (State.resetWith prm).Inv :=
  ⟨Memory.wf_nil _, by simp, by simp, by simp, (State.stackWithinBound_iff _).mpr fun _ _ => by simp⟩

/-- Settles O55: reset is the case of the default parameters. -/
theorem invariantAfterReset : Obligations.InvariantAfterReset :=
  ⟨State.reset_eq_resetWith ▸ State.resetWith_inv .default, State.resetWith_inv⟩

/-! ### One lemma per part of the invariant -/

/-- Every completing instruction keeps the canonical form of memory. -/
theorem exec_mem_wf {i : Instr} {s t : State} (h : exec i s = .next t)
    (hs : Memory.wf s.params.glyphRom s.mem = true) : Memory.wf t.params.glyphRom t.mem = true := by
  rw [(exec_frame h).params]
  cases i with
  | ldB =>
    obtain ⟨-, rfl⟩ := withinMemory_next h
    exact Memory.wf_write _ _ (Memory.wf_write _ _ (Memory.wf_write _ _ hs))
  | storeRegs => obtain ⟨-, rfl⟩ := withinMemory_next h; exact storeBlock_wf _ s hs
  | _ => rw [(exec_frame h).mem rfl]; exact hs

/-- A glyph address is that of one of the 16 digits (R132). -/
theorem toNat_glyphAddress_le (b : Byte) : (glyphAddress b).toNat ≤ 75 := by
  have h : (b &&& 0x0F).toNat ≤ 15 := Nat.and_le_right
  calc (glyphAddress b).toNat
      = (b &&& 0x0F).toNat % 2 ^ 16 * 5 % 2 ^ 16 := by rw [glyphAddress, BitVec.toNat_mul, BitVec.toNat_setWidth]; rfl
    _ ≤ (b &&& 0x0F).toNat * 5 := (Nat.mod_le _ _).trans (Nat.mul_le_mul_right 5 (Nat.mod_le _ _))
    _ ≤ 75 := by omega

/-- FX1E leaves the sum modulo 4096 in I (R131). -/
theorem execAddI_I {x : Reg} {s t : State} (h : execAddI x s = .next t) :
    t.I = BitVec.ofNat 16 ((s.I.toNat + (s.reg x).toNat) % 4096) := by
  cases h
  split <;> rfl

/-- I stays a 12-bit address (R23). -/
theorem exec_I_le {i : Instr} {s t : State} (h : exec i s = .next t) (hs : s.I.toNat ≤ 4095) : t.I.toNat ≤ 4095 := by
  cases i with
  | ldI nnn => cases h; have := nnn.isLt; simp only [State.setI_I, toNat_absolute]; omega
  | addI => rw [execAddI_I h, BitVec.toNat_ofNat]; omega
  | ldF => cases h; exact (toNat_glyphAddress_le _).trans (by omega)
  | _ => rw [(exec_frame h).I rfl]; exact hs

/-- pc stays at most 0x10FE, the largest sum BNNN can make (R24, R107). -/
theorem pcAfter_le (i : Instr) {s : State} (hlo : 2 ≤ s.pc.toNat) (hhi : s.pc.toNat ≤ 0x1000)
    (hs : ∀ a ∈ s.stack, a.toNat ≤ 0x1000) : (pcAfter i s).toNat ≤ 0x10FE := by
  have skip (c : Prop) [Decidable c] : (if c then s.pc + 2 else s.pc).toNat ≤ 0x10FE := by
    split
    · bv_omega
    · omega
  cases i with
  | jp nnn => have := nnn.isLt; rw [pcAfter, toNat_absolute]; omega
  | call nnn => have := nnn.isLt; rw [pcAfter, toNat_absolute]; omega
  | jpV0 nnn => have := nnn.isLt; have := (s.reg 0).isLt; rw [pcAfter, toNat_offsetByV0]; omega
  | ret =>
    rw [pcAfter]
    cases e : s.stack with
    | nil => exact hhi.trans (by omega)
    | cons a rest => exact (hs a (by simp [e])).trans (by omega)
  | seByte => exact skip _
  | sneByte => exact skip _
  | seReg => exact skip _
  | sneReg => exact skip _
  | skp => exact skip _
  | sknp => exact skip _
  | ldVxK =>
    rw [pcAfter]
    split
    · omega
    · bv_omega
  | _ => exact hhi.trans (by omega)

/-- All that can happen to the stack: nothing, a push of pc below the bound, or a pop (R27, R100, R102). -/
theorem exec_stack_cases {i : Instr} {s t : State} (h : exec i s = .next t) :
    t.stack = s.stack ∨ (s.stackFull = false ∧ t.stack = s.pc :: s.stack) ∨ t.stack = s.stack.tail := by
  cases i with
  | call => obtain ⟨hf, rfl⟩ := execCall_next h; exact .inr (.inl ⟨hf, rfl⟩)
  | ret =>
    rcases execRet_next h with ⟨-, rfl⟩ | ⟨a, rest, e, rfl⟩
    · exact .inl rfl
    · exact .inr (.inr (by rw [e]; rfl))
  | _ => exact .inl ((exec_frame h).stack rfl)

/-- Stacked addresses stay at most 0x1000: the one pushed is pc, past the running word (R102). -/
theorem exec_stack_le {i : Instr} {s t : State} (h : exec i s = .next t) (hpc : s.pc.toNat ≤ 0x1000)
    (hs : ∀ a ∈ s.stack, a.toNat ≤ 0x1000) : ∀ a ∈ t.stack, a.toNat ≤ 0x1000 := by
  rcases exec_stack_cases h with e | ⟨-, e⟩ | e <;> rw [e]
  · exact hs
  · exact List.forall_mem_cons.mpr ⟨hpc, hs⟩
  · exact fun a ha => hs a (List.mem_of_mem_tail ha)

/-- The stack stays within its bound: a push finds it below (R28, R177). -/
theorem exec_stackWithinBound {i : Instr} {s t : State} (h : exec i s = .next t) (hs : s.stackWithinBound = true) :
    t.stackWithinBound = true := by
  rw [State.stackWithinBound_iff] at hs ⊢
  rw [(exec_frame h).params]
  intro d hd
  have hle := hs d hd
  rcases exec_stack_cases h with e | ⟨hf, e⟩ | e <;> rw [e]
  · exact hle
  · have hne := (State.stackFull_eq_false_iff s).mp hf d hd
    rw [List.length_cons]; omega
  · rw [List.length_tail]; omega

/-! ### The step -/

/-- An instruction run with pc past its word keeps the invariant. -/
theorem exec_inv {i : Instr} {s t : State} (h : exec i s = .next t) (hlo : 2 ≤ s.pc.toNat) (hhi : s.pc.toNat ≤ 0x1000)
    (hs : s.Inv) : t.Inv := by
  obtain ⟨hmem, hI, -, hstack, hbound⟩ := hs
  simp only [List.all_eq_true, decide_eq_true_eq] at hstack
  refine ⟨exec_mem_wf h hmem, exec_I_le h hI, ?_, ?_, exec_stackWithinBound h hbound⟩
  · rw [exec_pc h]; exact pcAfter_le i hlo hhi hstack
  · simpa using exec_stack_le h hhi hstack

/-- After poll and advance the invariant holds and pc is past a word inside memory (R26, R73). -/
theorem State.poll_advance_inv {s : State} (hpc : s.pc.toNat ≤ 0xFFE) (hs : s.Inv) :
    s.poll.advance.Inv ∧ s.poll.advance.pc.toNat = s.pc.toNat + 2 := by
  have hadv : s.poll.advance.pc.toNat = s.pc.toNat + 2 := by
    rw [State.advance_pc, State.poll_pc]; bv_omega
  obtain ⟨hmem, hI, -, hstack, hbound⟩ := hs
  rw [State.stackWithinBound_iff] at hbound
  refine ⟨⟨by simpa using hmem, by simpa using hI, by omega, by simpa using hstack, ?_⟩, hadv⟩
  rw [State.stackWithinBound_iff]
  simpa using hbound

/-- The invariant does not speak of the counters or of the accrued time. -/
theorem State.accrue_inv {s : State} (hs : s.Inv) : s.accrue.Inv := hs

/-- Settles O56: the invariant goes through poll and advance, the instruction, and the end of the iteration. -/
theorem stepKeepsTheInvariant : Obligations.StepKeepsTheInvariant := by
  intro s t hs h
  obtain ⟨i, u, hpc, -, hu, rfl⟩ := step_next h
  obtain ⟨hinv, hadv⟩ := State.poll_advance_inv (by simpa using hpc) hs
  rw [State.poll_pc] at hpc
  exact State.accrue_inv (exec_inv hu (by omega) (by omega) hinv)

end Sys2Proof.Machine
end

section
/-! SUPPORT. Noninterference of the counters, the random byte, the elapsed time and the key inputs (spec/10_state.md R29,
R33, R34). One update replaces them all at once, `State.mapPorts`; it commutes with every instruction that neither reads
nor writes what it changes. -/

namespace Sys2Proof.Machine

/-- Change DT by `d`, ST by `e` and the host's inputs by `k`, nothing else. -/
def State.mapPorts (d e : Byte → Byte) (k : HostInput → HostInput) (s : State) : State :=
  { s with dt := d s.dt, st := e s.st, input := k s.input }

section
variable (d e : Byte → Byte) (k : HostInput → HostInput)

@[simp] theorem State.mapPorts_I (s : State) : (s.mapPorts d e k).I = s.I := rfl
@[simp] theorem State.mapPorts_stack (s : State) : (s.mapPorts d e k).stack = s.stack := rfl
@[simp] theorem State.mapPorts_input (s : State) : (s.mapPorts d e k).input = k s.input := rfl
@[simp] theorem State.mapPorts_params (s : State) : (s.mapPorts d e k).params = s.params := rfl
@[simp] theorem State.mapPorts_reg (s : State) (x : Reg) : (s.mapPorts d e k).reg x = s.reg x := rfl
@[simp] theorem State.mapPorts_stackFull (s : State) : (s.mapPorts d e k).stackFull = s.stackFull := rfl

/-! ### The shared operations -/

theorem withinMemory_mapPorts (n : Nat) (s t : State) :
    withinMemory n (s.mapPorts d e k) (t.mapPorts d e k) = mapState (State.mapPorts d e k) (withinMemory n s t) := by
  unfold withinMemory
  split <;> rfl

theorem withKey_mapPorts (x : Reg) (s t : State) :
    withKey x (s.mapPorts d e k) (t.mapPorts d e k) = mapState (State.mapPorts d e k) (withKey x s t) := by
  unfold withKey
  rw [State.mapPorts_reg]
  split <;> rfl

theorem stackUnderflow_mapPorts (s : State) :
    stackUnderflow (s.mapPorts d e k) = mapState (State.mapPorts d e k) (stackUnderflow s) := by
  unfold stackUnderflow
  rw [State.mapPorts_params]
  split <;> rfl

theorem storeBlock_mapPorts (n : Nat) (s : State) :
    storeBlock n (s.mapPorts d e k) = (storeBlock n s).mapPorts d e k := by
  induction n with
  | zero => rfl
  | succ n ih =>
    simp only [storeBlock, ih]
    split <;> rfl

theorem loadBlock_mapPorts (n : Nat) (s : State) :
    loadBlock n (s.mapPorts d e k) = (loadBlock n s).mapPorts d e k := by
  induction n with
  | zero => rfl
  | succ n ih =>
    simp only [loadBlock, ih]
    split <;> rfl

theorem composeRows_mapPorts (s : State) (ox oy n : Nat) (c : Canvas) :
    composeRows (s.mapPorts d e k) ox oy n c = composeRows s ox oy n c := by
  induction n with
  | zero => rfl
  | succ n ih => simp only [composeRows, ih]; rfl

theorem execRet_mapPorts (s : State) : execRet (s.mapPorts d e k) = mapState (State.mapPorts d e k) (execRet s) := by
  unfold execRet
  rw [State.mapPorts_stack]
  cases s.stack with
  | nil => exact stackUnderflow_mapPorts d e k s
  | cons a rest => rfl

theorem execCall_mapPorts (nnn : Addr) (s : State) :
    execCall nnn (s.mapPorts d e k) = mapState (State.mapPorts d e k) (execCall nnn s) := by
  unfold execCall
  rw [State.mapPorts_stackFull]
  split <;> rfl

theorem execDrw_mapPorts (x y : Reg) (n : Nibble) (s : State) :
    execDrw x y n (s.mapPorts d e k) = mapState (State.mapPorts d e k) (execDrw x y n s) := by
  unfold execDrw
  rw [← withinMemory_mapPorts]
  simp only [composeRows_mapPorts]
  rfl

theorem execAddI_mapPorts (x : Reg) (s : State) :
    execAddI x (s.mapPorts d e k) = mapState (State.mapPorts d e k) (execAddI x s) := by
  simp only [execAddI, mapState, apply_ite (State.mapPorts d e k)]
  rfl

theorem execLdB_mapPorts (x : Reg) (s : State) :
    execLdB x (s.mapPorts d e k) = mapState (State.mapPorts d e k) (execLdB x s) := by
  unfold execLdB
  rw [← withinMemory_mapPorts]
  rfl

theorem execStoreRegs_mapPorts (x : Reg) (s : State) :
    execStoreRegs x (s.mapPorts d e k) = mapState (State.mapPorts d e k) (execStoreRegs x s) := by
  unfold execStoreRegs
  rw [storeBlock_mapPorts, ← withinMemory_mapPorts]
  rfl

theorem execLoadRegs_mapPorts (x : Reg) (s : State) :
    execLoadRegs x (s.mapPorts d e k) = mapState (State.mapPorts d e k) (execLoadRegs x s) := by
  unfold execLoadRegs
  rw [loadBlock_mapPorts, ← withinMemory_mapPorts]
  rfl

/-! ### The instructions -/

section
variable {k} {s : State} (hdown : (k s.input).keyDown = s.input.keyDown)
include hdown

theorem State.mapPorts_keyDown (n : Nat) : (s.mapPorts d e k).keyDown n = s.keyDown n := by
  simp only [State.keyDown, State.mapPorts_input, hdown]

theorem execSkp_mapPorts (x : Reg) : execSkp x (s.mapPorts d e k) = mapState (State.mapPorts d e k) (execSkp x s) := by
  unfold execSkp
  rw [← withKey_mapPorts, State.mapPorts_keyDown d e hdown]
  rfl

theorem execSknp_mapPorts (x : Reg) : execSknp x (s.mapPorts d e k) = mapState (State.mapPorts d e k) (execSknp x s) := by
  unfold execSknp
  rw [← withKey_mapPorts, State.mapPorts_keyDown d e hdown]
  rfl

theorem execLdVxK_mapPorts (x : Reg) (hlast : (k s.input).lastKey = s.input.lastKey) :
    execLdVxK x (s.mapPorts d e k) = mapState (State.mapPorts d e k) (execLdVxK x s) := by
  have hany : (s.mapPorts d e k).anyKeyDown = s.anyKeyDown := congrArg (· != 0) hdown
  simp only [execLdVxK, mapState, apply_ite (State.mapPorts d e k), hany, State.mapPorts_input, hlast]
  rfl

end

/-- An instruction that neither reads nor writes what `mapPorts` changes gives the same outcome, changed in the same
way. -/
theorem exec_mapPorts (i : Instr) (s : State) (hd : readsDT i = true ∨ writesDT i = true → ∀ b, d b = b)
    (he : writesST i = true → ∀ b, e b = b) (hr : readsRnd i = true → (k s.input).rnd = s.input.rnd)
    (hk : readsKeys i = true → (k s.input).keyDown = s.input.keyDown ∧ (k s.input).lastKey = s.input.lastKey) :
    exec i (s.mapPorts d e k) = mapState (State.mapPorts d e k) (exec i s) := by
  cases i with
  | ret => exact execRet_mapPorts d e k s
  | call nnn => exact execCall_mapPorts d e k nnn s
  | drw x y n => exact execDrw_mapPorts d e k x y n s
  | addI x => exact execAddI_mapPorts d e k x s
  | ldB x => exact execLdB_mapPorts d e k x s
  | storeRegs x => exact execStoreRegs_mapPorts d e k x s
  | loadRegs x => exact execLoadRegs_mapPorts d e k x s
  | rnd x nn => simp only [exec, execRnd, State.mapPorts_input, hr rfl]; rfl
  | skp x => exact execSkp_mapPorts d e (hk rfl).1 x
  | sknp x => exact execSknp_mapPorts d e (hk rfl).1 x
  | ldVxK x => exact execLdVxK_mapPorts d e (hk rfl).1 x (hk rfl).2
  | ldVxDT x =>
    have : (s.mapPorts d e k).dt = s.dt := hd (.inl rfl) _
    simp only [exec, execLdVxDT, this]
    rfl
  | ldDTVx x => simp only [exec, execLdDTVx, mapState, State.mapPorts, State.setDT, hd (.inr rfl)]; rfl
  | ldSTVx x => simp only [exec, execLdSTVx, mapState, State.mapPorts, State.setST, he rfl]; rfl
  | _ => rfl

end

/-- FX15 overwrites DT and does not read it (R162). -/
theorem exec_setDT_of_writesDT {i : Instr} (s : State) (b : Byte) (h : writesDT i = true) :
    exec i (s.setDT b) = exec i s := by
  cases i with
  | ldDTVx x => rfl
  | _ => cases h

/-- FX18 overwrites ST and does not read it (R163). -/
theorem exec_setST_of_writesST {i : Instr} (s : State) (b : Byte) (h : writesST i = true) :
    exec i (s.setST b) = exec i s := by
  cases i with
  | ldSTVx x => rfl
  | _ => cases h

/-- Settles O59: each clause is `exec_mapPorts` for an update of one port. -/
theorem unreadStateDoesNotInterfere : Obligations.UnreadStateDoesNotInterfere := by
  intro i s
  refine ⟨fun b hw => ?_, fun b => exec_setST_of_writesST s b, fun b hr hw => ?_, fun b => exec_setDT_of_writesDT s b,
    fun b e hr => ?_, fun k l hr => ?_⟩
  · exact exec_mapPorts id (fun _ => b) id i s (fun _ _ => rfl) (by simp [hw]) (fun _ => rfl) (fun _ => ⟨rfl, rfl⟩)
  · exact exec_mapPorts (fun _ => b) id id i s (by simp [hr, hw]) (fun _ _ => rfl) (fun _ => rfl) (fun _ => ⟨rfl, rfl⟩)
  · exact exec_mapPorts id id (fun _ => { s.input with rnd := b, elapsed := e }) i s (fun _ _ => rfl) (fun _ _ => rfl)
      (by simp [hr]) (fun _ => ⟨rfl, rfl⟩)
  · exact exec_mapPorts id id (fun _ => { s.input with keyDown := k, lastKey := l }) i s (fun _ _ => rfl)
      (fun _ _ => rfl) (fun _ => rfl) (by simp [hr])

end Sys2Proof.Machine
end

section
/-! SUPPORT. The poll and the values after reset (spec/10_state.md R33, R37). -/

namespace Sys2Proof.Machine

theorem State.poll_of_pending_cons {s : State} {h : HostInput} {rest : List HostInput} (hp : s.pending = h :: rest) :
    s.poll = { s with report := .clear, input := h, pending := rest, iteration := s.iteration + 1 } := by
  unfold State.poll
  split
  · next e => rw [hp] at e; cases e
  · next e => rw [hp] at e; cases e; rfl

theorem State.poll_of_pending_nil {s : State} (hp : s.pending = []) :
    s.poll = { s with report := .clear, input := Config.hostInput s.iteration, iteration := s.iteration + 1 } := by
  unfold State.poll
  split
  · rfl
  · next e => rw [hp] at e; cases e

/-- Settles O9: a clause for each form of the pending list. -/
theorem pollChangesTheInputsAndTheReport : Obligations.PollChangesTheInputsAndTheReport :=
  ⟨fun _ _ _ => State.poll_of_pending_cons, fun _ => State.poll_of_pending_nil⟩

/-- Settles O14: the registers, the glyphs, the other bytes and the framebuffer by their lemmas, every other field as
`State.reset` writes it out. -/
theorem resetValues : Obligations.ResetValues := by
  refine ⟨fun prm => ⟨State.resetWith_reg prm, rfl, rfl, rfl, rfl, rfl, rfl, fun cx cy => ?_,
    fun _ => State.resetWith_byte_of_lt prm, fun _ => State.resetWith_byte_of_le prm, rfl, rfl, rfl⟩,
    State.reset_eq_resetWith, rfl, rfl, rfl⟩
  rw [State.resetWith_fb, Framebuffer.pixel_allOff]

end Sys2Proof.Machine
end

section
/-! SUPPORT. What a completed FX55 and FX33 leave in memory (spec/20_memory.md R51, R55, R62). -/

namespace Sys2Proof.Machine

/-- FX55 in address order: inside the block each byte is its register's, every other byte is as before (R134,
decision D21). -/
theorem execStoreRegs_byte {x : Reg} {s t : State} (h : execStoreRegs x s = .next t) (a : Nat) :
    t.byte a =
      if _ : s.I.toNat ≤ a ∧ a < s.I.toNat + (x + 1) then s.reg ⟨a - s.I.toNat, by omega⟩ else s.byte a := by
  obtain ⟨hle, rfl⟩ := withinMemory_next h
  simp only [State.effective] at hle
  exact storeBlock_byte (x + 1) s x.isLt (by omega) a

/-- The byte FX55 leaves at distance `k` from `I` is register `k`'s. -/
theorem execStoreRegs_byte_of_le {x : Reg} {s t : State} (h : execStoreRegs x s = .next t) {k : Nat} (hk : k ≤ x.val) :
    t.byte (s.I.toNat + k) = s.reg ⟨k, by omega⟩ := by
  rw [execStoreRegs_byte h, dif_pos (by omega)]
  simp

/-- FX33 leaves every byte but its three as it was (R133). -/
theorem execLdB_byte_of_outside {x : Reg} {s t : State} (h : execLdB x s = .next t) {a : Nat}
    (ha : ¬(s.effective 0 ≤ a ∧ a ≤ s.effective 2)) : t.byte a = s.byte a := by
  obtain ⟨-, rfl⟩ := withinMemory_next h
  simp only [State.effective] at ha ⊢
  rw [State.byte_writeByte_of_ne _ _ (by omega), State.byte_writeByte_of_ne _ _ (by omega),
    State.byte_writeByte_of_ne _ _ (by omega)]

/-- An instruction that stores nothing leaves every byte as it was (R51): glyph table and memory are the same. -/
theorem exec_byte_of_not_writesMem {i : Instr} {s t : State} (h : exec i s = .next t) (hi : writesMem i = false)
    (a : Nat) : t.byte a = s.byte a :=
  State.byte_congr ((exec_frame h).mem hi) (exec_frame h).params a

/-- Settles O13: the two bytes of the word are those of two neighbouring registers of the block. -/
theorem storedRegistersAreFetched : Obligations.StoredRegistersAreFetched := by
  intro s t x k hk h
  rw [State.wordAt, execStoreRegs_byte_of_le h (k := k) (by omega), Nat.add_assoc, execStoreRegs_byte_of_le h hk]

/-- Settles O52: the two instructions that store by what they leave in memory, every other by its frame. -/
theorem onlyTheStoredBytesChange : Obligations.OnlyTheStoredBytesChange := by
  intro i s t h a ha
  cases i with
  | ldB => exact execLdB_byte_of_outside h ha
  | storeRegs x =>
    simp only [storesTo, State.effective] at ha
    rw [execStoreRegs_byte h, dif_neg (by omega)]
  | _ => exact exec_byte_of_not_writesMem h rfl a

end Sys2Proof.Machine
end

section
/-! SUPPORT. The decoder and the encoder are inverse to each other, and the words the decoder refuses
(spec/30_encoding.md R72, R75, R77, R78). -/

namespace Sys2Proof

/-! ### The fields of a word -/

/-- Settles O1: each field is a quotient and a remainder of the word. -/
theorem fieldsAreTheBitsOfTheWord : Obligations.FieldsAreTheBitsOfTheWord := by
  refine ⟨fun b0 b1 => ?_, fun op => ?_⟩
  · have := b0.isLt; have := b1.isLt
    simp only [fieldsOf, ← BitVec.toNat_inj, toNat_slice, toNat_wordOfBytes]
    omega
  · have := op.isLt
    simp only [fieldsOf, toNat_slice]
    omega

/-! ### A word from its fields: `ir` and the rest of its layout -/

section
variable {op : Word} {ir : Nibble} (h : (fieldsOf op).ir.toNat = ir.toNat)
include h

theorem packNNN_of_ir : packNNN ir (fieldsOf op).nnn = op := by
  have := op.isLt
  simp only [fieldsOf, toNat_slice, ← BitVec.toNat_inj, toNat_packNNN] at h ⊢
  omega

theorem packXNN_of_ir : packXNN ir (fieldsOf op).x (fieldsOf op).nn = op := by
  have := op.isLt
  simp only [fieldsOf, toNat_slice, ← BitVec.toNat_inj, toNat_packXNN] at h ⊢
  omega

theorem packXYN_of_ir : packXYN ir (fieldsOf op).x (fieldsOf op).y (fieldsOf op).n = op := by
  have := op.isLt
  simp only [fieldsOf, toNat_slice, ← BitVec.toNat_inj, toNat_packXYN] at h ⊢
  omega

end

/-! ### Decoding an encoded instruction -/

theorem decodeWord_packXYN (ir x y n : Nibble) :
    decodeWord (packXYN ir x y n) = decodeFields ⟨ir, x, y, n, y ++ n, x ++ y ++ n⟩ :=
  congrArg decodeFields (fieldsOf_packXYN ir x y n)

theorem decodeWord_packXNN (ir x : Nibble) (nn : Byte) :
    decodeWord (packXNN ir x nn) = decodeFields ⟨ir, x, nn.extractLsb' 4 4, nn.extractLsb' 0 4, nn, x ++ nn⟩ :=
  congrArg decodeFields (fieldsOf_packXNN ir x nn)

theorem decodeWord_packNNN (ir : Nibble) (nnn : Addr) :
    decodeWord (packNNN ir nnn) = decodeFields
      ⟨ir, nnn.extractLsb' 8 4, nnn.extractLsb' 4 4, nnn.extractLsb' 0 4, nnn.extractLsb' 0 8, nnn⟩ :=
  congrArg decodeFields (fieldsOf_packNNN ir nnn)

/-- One case per layout of the word: the decoder run on the fields of that layout. -/
theorem decodeWord_encode (i : Instr) : decodeWord (encode i) = some i := by
  cases i with
  | jp nnn | call nnn | ldI nnn | jpV0 nnn => exact decodeWord_packNNN _ nnn
  | cls x | ret x => exact decodeWord_packXNN _ x _
  | seByte x nn | sneByte x nn | ldByte x nn | addByte x nn | rnd x nn => exact decodeWord_packXNN _ (nibbleOf x) nn
  | skp x | sknp x | ldVxDT x | ldVxK x | ldDTVx x | ldSTVx x | addI x | ldF x | ldB x | storeRegs x | loadRegs x =>
    exact decodeWord_packXNN _ (nibbleOf x) _
  | seReg x y n | sneReg x y n | drw x y n => exact decodeWord_packXYN _ (nibbleOf x) (nibbleOf y) n
  | ldReg x y | orReg x y | andReg x y | xorReg x y | addReg x y | subReg x y | shl x y | subnReg x y | shr x y =>
    exact decodeWord_packXYN _ (nibbleOf x) (nibbleOf y) _

/-- Settles O2: `decodeWord_encode`. -/
theorem decodeOfEncodeIsTheInstruction : Obligations.DecodeOfEncodeIsTheInstruction := decodeWord_encode

/-! ### Encoding a decoded word -/

section
variable {f : Fields} {i : Instr}

theorem encode_of_decodeZero (h : decodeZero f = some i) : encode i = packXNN 0x0 f.x f.nn := by
  unfold decodeZero at h
  split at h <;> cases h
  all_goals next hnn => exact congrArg (packXNN 0x0 f.x) (BitVec.eq_of_toNat_eq hnn.symm)

theorem encode_of_decodeEight (h : decodeEight f = some i) : encode i = packXYN 0x8 f.x f.y f.n := by
  unfold decodeEight at h
  split at h <;> cases h
  all_goals next hn => exact congrArg (packXYN 0x8 f.x f.y) (BitVec.eq_of_toNat_eq hn.symm)

theorem encode_of_decodeE (h : decodeE f = some i) : encode i = packXNN 0xE f.x f.nn := by
  unfold decodeE at h
  split at h <;> cases h
  all_goals next hnn => exact congrArg (packXNN 0xE f.x) (BitVec.eq_of_toNat_eq hnn.symm)

theorem encode_of_decodeF (h : decodeF f = some i) : encode i = packXNN 0xF f.x f.nn := by
  unfold decodeF at h
  split at h <;> cases h
  all_goals next hnn => exact congrArg (packXNN 0xF f.x) (BitVec.eq_of_toNat_eq hnn.symm)

end

/-- All that the first level of the decoder can do (R75): go to one of the four second levels, or read an instruction
whatever the other fields are, and then the one whose word this is. -/
theorem decodeWord_cases (op : Word) :
    ((fieldsOf op).ir = 0x0 ∧ decodeWord op = decodeZero (fieldsOf op)) ∨
    ((fieldsOf op).ir = 0x8 ∧ decodeWord op = decodeEight (fieldsOf op)) ∨
    ((fieldsOf op).ir = 0xE ∧ decodeWord op = decodeE (fieldsOf op)) ∨
    ((fieldsOf op).ir = 0xF ∧ decodeWord op = decodeF (fieldsOf op)) ∨
    ((fieldsOf op).ir ∉ ([0x0, 0x8, 0xE, 0xF] : List Nibble) ∧ ∃ i, decodeWord op = some i ∧ encode i = op) := by
  unfold decodeWord decodeFields
  -- the arm of major `k` is the case `h_(k+1)`
  split
  case h_1 h => exact .inl ⟨BitVec.eq_of_toNat_eq h, rfl⟩
  case h_9 h => exact .inr (.inl ⟨BitVec.eq_of_toNat_eq h, rfl⟩)
  case h_15 h => exact .inr (.inr (.inl ⟨BitVec.eq_of_toNat_eq h, rfl⟩))
  case h_16 =>
    refine .inr (.inr (.inr (.inl ⟨?_, rfl⟩)))
    simp only [imp_false] at *
    bv_omega
  case h_2 h | h_3 h | h_11 h | h_12 h =>
    exact .inr (.inr (.inr (.inr ⟨by simp [← BitVec.toNat_inj, h], _, rfl, packNNN_of_ir h⟩)))
  case h_4 h | h_5 h | h_7 h | h_8 h | h_13 h =>
    exact .inr (.inr (.inr (.inr ⟨by simp [← BitVec.toNat_inj, h], _, rfl, packXNN_of_ir h⟩)))
  case h_6 h | h_10 h | h_14 h =>
    exact .inr (.inr (.inr (.inr ⟨by simp [← BitVec.toNat_inj, h], _, rfl, packXYN_of_ir h⟩)))

/-- Settles O3: on each first level the encoder puts back the fields the decoder took. -/
theorem encodeOfDecodeIsTheWord : Obligations.EncodeOfDecodeIsTheWord := by
  intro op i h
  rcases decodeWord_cases op with ⟨hir, e⟩ | ⟨hir, e⟩ | ⟨hir, e⟩ | ⟨hir, e⟩ | ⟨-, j, e, hj⟩ <;> rw [e] at h
  · exact (encode_of_decodeZero h).trans (packXNN_of_ir (congrArg _ hir))
  · exact (encode_of_decodeEight h).trans (packXYN_of_ir (congrArg _ hir))
  · exact (encode_of_decodeE h).trans (packXNN_of_ir (congrArg _ hir))
  · exact (encode_of_decodeF h).trans (packXNN_of_ir (congrArg _ hir))
  · cases h; exact hj

/-! ### The reserved words -/

section
variable (f : Fields)

theorem decodeZero_eq_none_iff : decodeZero f = none ↔ f.nn ∉ ([0xE0, 0xEE] : List Byte) := by
  unfold decodeZero
  split <;> simp_all [← BitVec.toNat_inj]

theorem decodeEight_eq_none_iff :
    decodeEight f = none ↔ f.n ∈ ([0x8, 0x9, 0xA, 0xB, 0xC, 0xD, 0xF] : List Nibble) := by
  have := f.n.isLt
  simp only [List.mem_cons, List.not_mem_nil, or_false, ← BitVec.toNat_inj]
  unfold decodeEight
  split
  case h_10 => simp only [imp_false, true_iff] at *; bv_omega
  all_goals next h => simp [h]

theorem decodeE_eq_none_iff : decodeE f = none ↔ f.nn ∉ ([0x9E, 0xA1] : List Byte) := by
  unfold decodeE
  split <;> simp_all [← BitVec.toNat_inj]

theorem decodeF_eq_none_iff :
    decodeF f = none ↔ f.nn ∉ ([0x07, 0x0A, 0x15, 0x18, 0x1E, 0x29, 0x33, 0x55, 0x65] : List Byte) := by
  unfold decodeF
  split <;> simp_all [← BitVec.toNat_inj]

end

/-- Settles O5: the second level decides for the four majors that have one, and no word of another major is reserved. -/
theorem reservedWordsAreThoseOfTheTable : Obligations.ReservedWordsAreThoseOfTheTable := by
  intro op
  rcases decodeWord_cases op with ⟨hir, e⟩ | ⟨hir, e⟩ | ⟨hir, e⟩ | ⟨hir, e⟩ | ⟨hir, i, e, -⟩ <;> rw [e]
  · rw [decodeZero_eq_none_iff]; simp [hir]
  · rw [decodeEight_eq_none_iff]; simp [hir]
  · rw [decodeE_eq_none_iff]; simp [hir]
  · rw [decodeF_eq_none_iff]; simp [hir]
  · refine iff_of_false (by simp) ?_
    rintro (⟨h, -⟩ | ⟨h, -⟩ | ⟨h, -⟩ | ⟨h, -⟩) <;> simp [h] at hir

/-- Settles O6: ten closed words. -/
theorem wordsOfTheVectorsDecode : Obligations.WordsOfTheVectorsDecode := by
  unfold Obligations.WordsOfTheVectorsDecode
  decide

/-- Settles O7: each word is the encoding of its instruction, and `exec` drops the nibble. -/
theorem uncheckedNibblesHaveNoEffect : Obligations.UncheckedNibblesHaveNoEffect :=
  ⟨fun x _ => ⟨decodeWord_encode (.cls x), rfl⟩, fun x _ => ⟨decodeWord_encode (.ret x), rfl⟩,
    fun x y n _ => ⟨decodeWord_encode (.seReg x y n), rfl⟩, fun x y n _ => ⟨decodeWord_encode (.sneReg x y n), rfl⟩,
    fun x y _ => ⟨decodeWord_encode (.shl x y), rfl⟩, fun x y _ => ⟨decodeWord_encode (.shr x y), rfl⟩⟩

end Sys2Proof
end

section
/-! SUPPORT. The opcode map of R76: no two rows overlap, every instruction's word is selected by its own row, and a word
that a row selects is not reserved. -/

namespace Sys2Proof

open Laws

/-! ### One row at most -/

/-- Two rows that select one word agree on the bits that both masks keep. -/
theorem OpcodeRow.pattern_and_mask_comm {r q : OpcodeRow} {op : Word} (hr : r.selects op = true)
    (hq : q.selects op = true) : r.pattern &&& q.mask = q.pattern &&& r.mask := by
  simp only [OpcodeRow.selects, beq_iff_eq] at hr hq
  rw [← hr, ← hq, BitVec.and_assoc, BitVec.and_comm r.mask, ← BitVec.and_assoc]

theorem opcodeMap_pairwise_disjoint :
    opcodeMap.Pairwise fun r q => ∀ op : Word, ¬(r.selects op = true ∧ q.selects op = true) := by
  have h : opcodeMap.Pairwise fun r q => r.pattern &&& q.mask ≠ q.pattern &&& r.mask := by decide
  exact h.imp fun hne _ ⟨hr, hq⟩ => hne (OpcodeRow.pattern_and_mask_comm hr hq)

theorem opcodeMap_index_unique {j k : Nat} {q r : OpcodeRow} {op : Word} (hj : opcodeMap[j]? = some q)
    (hk : opcodeMap[k]? = some r) (hq : q.selects op = true) (hr : r.selects op = true) : k = j := by
  obtain ⟨hj', rfl⟩ := List.getElem?_eq_some_iff.mp hj
  obtain ⟨hk', rfl⟩ := List.getElem?_eq_some_iff.mp hk
  have hdisj := List.pairwise_iff_getElem.mp opcodeMap_pairwise_disjoint
  rcases lt_trichotomy k j with h | h | h
  · exact (hdisj k j hk' hj' h op ⟨hr, hq⟩).elim
  · exact h
  · exact (hdisj j k hj' hk' h op ⟨hq, hr⟩).elim

/-! ### The row of an instruction -/

theorem rowBits (i : Instr) : RowBits.Statement i := by
  cases i with
  | cls x => exact RowBits.cls x
  | ret x => exact RowBits.ret x
  | jp nnn => exact RowBits.jp nnn
  | call nnn => exact RowBits.call nnn
  | seByte x nn => exact RowBits.seByte x nn
  | sneByte x nn => exact RowBits.sneByte x nn
  | seReg x y n => exact RowBits.seReg x y n
  | ldByte x nn => exact RowBits.ldByte x nn
  | addByte x nn => exact RowBits.addByte x nn
  | ldReg x y => exact RowBits.ldReg x y
  | orReg x y => exact RowBits.orReg x y
  | andReg x y => exact RowBits.andReg x y
  | xorReg x y => exact RowBits.xorReg x y
  | addReg x y => exact RowBits.addReg x y
  | subReg x y => exact RowBits.subReg x y
  | shl x y => exact RowBits.shl x y
  | subnReg x y => exact RowBits.subnReg x y
  | shr x y => exact RowBits.shr x y
  | sneReg x y n => exact RowBits.sneReg x y n
  | ldI nnn => exact RowBits.ldI nnn
  | jpV0 nnn => exact RowBits.jpV0 nnn
  | rnd x nn => exact RowBits.rnd x nn
  | drw x y n => exact RowBits.drw x y n
  | skp x => exact RowBits.skp x
  | sknp x => exact RowBits.sknp x
  | ldVxDT x => exact RowBits.ldVxDT x
  | ldVxK x => exact RowBits.ldVxK x
  | ldDTVx x => exact RowBits.ldDTVx x
  | ldSTVx x => exact RowBits.ldSTVx x
  | addI x => exact RowBits.addI x
  | ldF x => exact RowBits.ldF x
  | ldB x => exact RowBits.ldB x
  | storeRegs x => exact RowBits.storeRegs x
  | loadRegs x => exact RowBits.loadRegs x

/-- The row of the instruction a word decodes to selects the word. -/
theorem selects_of_decodeWord {op : Word} {i : Instr} (h : decodeWord op = some i) :
    ∃ r, opcodeMap[i.rowIndex]? = some r ∧ r.selects op = true :=
  encodeOfDecodeIsTheWord op i h ▸ rowBits i

/-! ### A selected word is not reserved -/

/-- The rows by what their masks keep: always `ir`; NN, or N where the major is 8, or no minor field where the major has
none (R75). No row's pattern is itself reserved. -/
theorem opcodeMap_masks : ∀ r ∈ opcodeMap, decodeWord r.pattern ≠ none ∧ (fieldsOf r.mask).ir = 0xF ∧
    (((fieldsOf r.mask).n = 0xF ∧ (fieldsOf r.mask).nn = 0xFF) ∨
      ((fieldsOf r.mask).n = 0xF ∧ (fieldsOf r.pattern).ir = 0x8) ∨
      (fieldsOf r.pattern).ir ∉ ([0x0, 0x8, 0xE, 0xF] : List Nibble)) := by decide

/-- A selected word has the row's pattern on the bits of each field that the mask keeps. -/
theorem OpcodeRow.fieldsOf_pattern {r : OpcodeRow} {op : Word} (h : r.selects op = true) :
    (fieldsOf r.pattern).ir = (fieldsOf op).ir &&& (fieldsOf r.mask).ir ∧
    (fieldsOf r.pattern).n = (fieldsOf op).n &&& (fieldsOf r.mask).n ∧
    (fieldsOf r.pattern).nn = (fieldsOf op).nn &&& (fieldsOf r.mask).nn := by
  simp only [OpcodeRow.selects, beq_iff_eq] at h
  rw [← h]
  exact ⟨BitVec.extractLsb'_and, BitVec.extractLsb'_and, BitVec.extractLsb'_and⟩

/-- Whether a word is reserved does not depend on the bits its row leaves out. -/
theorem decodeWord_ne_none_of_selects {r : OpcodeRow} {op : Word} (hr : r ∈ opcodeMap) (h : r.selects op = true) :
    decodeWord op ≠ none := by
  obtain ⟨hpat, hmir, hminor⟩ := opcodeMap_masks r hr
  obtain ⟨hir, hn, hnn⟩ := OpcodeRow.fieldsOf_pattern h
  rw [hmir, nibble_and_all] at hir
  rw [ne_eq, reservedWordsAreThoseOfTheTable, hir] at hpat
  rw [ne_eq, reservedWordsAreThoseOfTheTable]
  rw [hir] at hminor
  rcases hminor with ⟨hmn, hmnn⟩ | ⟨hmn, h8⟩ | hno
  · rw [hmn, nibble_and_all] at hn
    rw [hmnn, byte_and_all] at hnn
    rwa [hn, hnn] at hpat
  · rw [hmn, nibble_and_all] at hn
    rw [hn] at hpat
    simpa [h8] using hpat
  · rintro (⟨h, -⟩ | ⟨h, -⟩ | ⟨h, -⟩ | ⟨h, -⟩) <;> simp [h] at hno

/-- Settles O4: a word has the row of its instruction and no other, and a refused word has none. -/
theorem decoderAgreesWithTheOpcodeMap : Obligations.DecoderAgreesWithTheOpcodeMap := by
  refine ⟨fun op i h k r hk => ?_, fun op => ⟨fun h r hr => ?_, fun h => ?_⟩, opcodeMap_pairwise_disjoint⟩
  · obtain ⟨q, hq, hsel⟩ := selects_of_decodeWord h
    refine ⟨opcodeMap_index_unique hq hk hsel, ?_⟩
    rintro rfl
    rw [hq] at hk
    cases hk
    exact hsel
  · exact Bool.eq_false_iff.mpr fun hsel => decodeWord_ne_none_of_selects hr hsel h
  · cases e : decodeWord op with
    | none => rfl
    | some i =>
      obtain ⟨q, hq, hsel⟩ := selects_of_decodeWord e
      rw [h q (List.mem_of_getElem? hq)] at hsel
      cases hsel

end Sys2Proof
end

section
/-! SUPPORT. The three ways a step can begin (spec/30_encoding.md R70, R73, R79), and the word a host stores at pc. -/

namespace Sys2Proof.Machine

/-! ### Fetch and decode -/

section
variable {s : State}

theorem fetchDecode_of_lt (h : 0xFFE < s.pc.toNat) :
    fetchDecode s = .error (raise .fetchOutOfRange .fetchOutOfRange s.pc.toNat s) := if_pos h

theorem fetchDecode_of_none (hpc : s.pc.toNat ≤ 0xFFE) (h : decodeWord (s.wordAt s.pc.toNat) = none) :
    fetchDecode s = .error (raise .reservedOpcode .reservedOpcode (s.wordAt s.pc.toNat).toNat s.advance) := by
  rw [fetchDecode, if_neg (by omega), h]

theorem fetchDecode_of_some {i : Instr} (hpc : s.pc.toNat ≤ 0xFFE) (h : decodeWord (s.wordAt s.pc.toNat) = some i) :
    fetchDecode s = .ok (i, s.advance) := by
  rw [fetchDecode, if_neg (by omega), h]

theorem step_of_error {o : Outcome} (h : fetchDecode s.poll = .error o) : step s = o := by rw [step, h]

theorem step_of_ok {i : Instr} {t : State} (h : fetchDecode s.poll = .ok (i, t)) : step s = finish (exec i t) := by
  rw [step, h]

/-- A step whose word decodes runs that instruction with pc 2 further (R73, R205). -/
theorem step_of_some {i : Instr} (hpc : s.pc.toNat ≤ 0xFFE) (h : decodeWord (s.wordAt s.pc.toNat) = some i) :
    step s = finish (exec i (s.poll.setPc (s.pc + 2))) := by
  rw [step_of_ok (fetchDecode_of_some (by simpa using hpc) (by simpa using h)), State.advance, State.poll_pc]

end

/-- Settles O8: `step_of_some` and the three equations of `finish`. -/
theorem stepRunsTheDecodedInstruction : Obligations.StepRunsTheDecodedInstruction := by
  intro s i hpc h
  rw [step_of_some hpc h]
  exact ⟨fun t e => by rw [e, finish], fun f e => by rw [e, finish], fun r e => by rw [e, finish]⟩

/-! ### Faults before any instruction runs -/

/-- The poll changes nothing of the CORE's state (R33); nor do the mark of a fault and, but for pc, the advance. -/
theorem State.sameButPc_poll (s : State) : s.SameButPc s.poll := by simp [State.SameButPc]

/-- Settles O10: what is left is the polled state, marked. -/
theorem fetchAboveMemoryFaults : Obligations.FetchAboveMemoryFaults := by
  intro s h
  have hf := step_of_error (fetchDecode_of_lt (s := s.poll) (by simpa using h))
  rw [State.poll_pc] at hf
  exact ⟨_, hf, s.sameButPc_poll, s.poll_pc, rfl, rfl⟩

/-- Settles O11: what is left is the polled and advanced state, marked. -/
theorem reservedWordFaultsAfterTheAdvance : Obligations.ReservedWordFaultsAfterTheAdvance := by
  intro s hpc h
  have hf := step_of_error (fetchDecode_of_none (s := s.poll) (by simpa using hpc) (by simpa using h))
  rw [State.poll_pc, State.poll_wordAt] at hf
  exact ⟨_, hf, s.sameButPc_poll, congrArg (· + 2) s.poll_pc, rfl, rfl⟩

/-! ### The word a host stores -/

/-- The two bytes of a word, more significant first, make the word (R52). -/
theorem wordOfBytes_ofNat (w : Word) : wordOfBytes (BitVec.ofNat 8 (w.toNat / 256)) (BitVec.ofNat 8 w.toNat) = w := by
  have := w.isLt
  rw [← BitVec.toNat_inj, toNat_wordOfBytes, BitVec.toNat_ofNat, BitVec.toNat_ofNat]
  omega

theorem State.wordAt_storeWord (s : State) {a : Nat} (w : Word) (h : a ≤ 0xFFE) :
    (s.storeWord a w.toNat).wordAt a = w := by
  rw [State.wordAt, State.storeWord, State.byte_writeByte_of_ne _ _ (by omega),
    State.byte_writeByte_self _ _ (by omega), State.byte_writeByte_self _ _ (by omega), wordOfBytes_ofNat]

theorem State.byte_storeWord_of_ne (s : State) {a k : Nat} (w : Nat) (h₀ : k ≠ a) (h₁ : k ≠ a + 1) :
    (s.storeWord a w).byte k = s.byte k := by
  rw [State.storeWord, State.byte_writeByte_of_ne _ _ h₁, State.byte_writeByte_of_ne _ _ h₀]

@[simp] theorem State.withFetchWord_pc (s : State) (n w : Nat) : (s.withFetchWord n w).pc = s.pc := rfl

/-- Settles O12: the word read back at pc decodes to the instruction it encodes. -/
theorem storedWordIsTheNextInstruction : Obligations.StoredWordIsTheNextInstruction := by
  intro s i hpc
  refine ⟨?_, fun a h₀ h₁ => State.byte_storeWord_of_ne s _ h₀ h₁⟩
  rw [fetchDecode_of_some (by simpa using hpc) (i := i), State.advance, State.poll_pc, State.withFetchWord_pc]
  rw [State.poll_pc, State.poll_wordAt, State.withFetchWord_pc, State.withFetchWord, State.wordAt_storeWord s _ hpc,
    decodeWord_encode]

end Sys2Proof.Machine
end

section
/-! SUPPORT. Control transfer (spec/40_control_flow.md R100 - R107): an equation for each case of
CALL, RET and the skips. -/

namespace Sys2Proof.Machine

/-! ### JP -/

/-- Settles O16: the 12 bits of the address are not cut. -/
theorem jumpSetsPc : Obligations.JumpSetsPc :=
  fun nnn _ => ⟨decodeWord_encode (.jp nnn), _, rfl, toNat_absolute nnn, rfl⟩

/-- Settles O24: the sum fits in pc. -/
theorem jumpWithOffsetIsNotReduced : Obligations.JumpWithOffsetIsNotReduced :=
  fun nnn s => ⟨_, rfl, toNat_offsetByV0 s nnn, rfl⟩

/-! ### CALL -/

section
variable {s : State} (nnn : Addr)

theorem execCall_of_room (h : s.stackFull = false) : execCall nnn s = .next ((s.push s.pc).setPc (absolute nnn)) :=
  if_neg (by simp [h])

theorem execCall_of_full (h : s.stackFull = true) :
    execCall nnn s = .fault (.stackOverflow s.fetchedFrom (s.markFault .stackOverflow s.fetchedFrom)) := if_pos h

end

theorem State.stackFull_eq_true_iff (s : State) : s.stackFull = true ↔ s.params.stackDepth = some s.stack.length := by
  unfold State.stackFull
  split
  · next h => simp [h]
  · next d h => rw [h, beq_iff_eq, Option.some_inj, eq_comm]

/-- Settles O17: a stack that is not at its bound has room. -/
theorem callPushesTheReturnAddress : Obligations.CallPushesTheReturnAddress := by
  intro nnn s hroom
  exact ⟨_, execCall_of_room nnn (s.stackFull_eq_false_iff.mpr hroom), rfl, toNat_absolute nnn, rfl⟩

/-- The mark of a fault is all that sets the state it leaves apart (R178, R180). -/
theorem State.sameButPc_markFault (s : State) (code : ErrorCode) (value : Nat) :
    s.SameButPc (s.markFault code value) := by simp [State.SameButPc]

/-- Settles O18: what is left is the state the CALL ran in, marked. -/
theorem callAtTheBoundFaults : Obligations.CallAtTheBoundFaults := by
  rintro nnn s d hd rfl
  exact ⟨_, execCall_of_full nnn (s.stackFull_eq_true_iff.mpr hd), s.sameButPc_markFault _ _, rfl, rfl, rfl⟩

/-! ### RET -/

section
variable {s : State}

theorem execRet_of_cons {a : Word} {rest : List Word} (h : s.stack = a :: rest) :
    execRet s = .next ((s.setStack rest).setPc a) := by
  rw [execRet, h]

theorem execRet_of_nil (h : s.stack = []) : execRet s = stackUnderflow s := by
  rw [execRet, h]

theorem stackUnderflow_of_halt (h : s.params.continueAfterUnderflow = false) :
    stackUnderflow s = .fault (.stackUnderflow s.fetchedFrom (s.markFault .stackUnderflow s.fetchedFrom)) :=
  if_neg (by simp [h])

theorem stackUnderflow_of_continue (h : s.params.continueAfterUnderflow = true) :
    stackUnderflow s = .next (s.markFault .stackUnderflow s.fetchedFrom) := if_pos h

end

/-- Settles O19: `execRet_of_cons`. -/
theorem returnPopsTheNewestEntry : Obligations.ReturnPopsTheNewestEntry :=
  fun _ _ _ _ => execRet_of_cons

/-- Settles O20: a case for each choice of the host. -/
theorem returnOnEmptyStackUnderflows : Obligations.ReturnOnEmptyStackUnderflows := by
  refine fun x s he => ⟨fun halts => ?_, fun continues => ?_⟩
  · exact ⟨_, (execRet_of_nil he).trans (stackUnderflow_of_halt halts), s.sameButPc_markFault _ _, rfl, rfl, rfl⟩
  · exact (execRet_of_nil he).trans (stackUnderflow_of_continue continues)

/-- Settles O21: the CALL found room, so the entry the RET pops is the pc it pushed. -/
theorem returnUndoesCall : Obligations.ReturnUndoesCall := by
  intro nnn x s t p h
  obtain ⟨-, rfl⟩ := execCall_next h
  have hpushed : (((s.push s.pc).setPc (absolute nnn)).setPc p).stack = s.pc :: s.stack := rfl
  exact execRet_of_cons hpushed

/-! ### The skips -/

section
variable (s : State) (a b : Byte)

theorem next_skipIf_beq :
    (.next (s.skipIf (a == b)) : Outcome) = .next (s.setPc (if a = b then s.pc + 2 else s.pc)) := by
  simp [State.skipIf]

theorem next_skipIf_bne :
    (.next (s.skipIf (a != b)) : Outcome) = .next (s.setPc (if a = b then s.pc else s.pc + 2)) := by
  simp [State.skipIf]

end

/-- Settles O22: the two skips make the same test and take opposite branches. -/
theorem skipsOnImmediate : Obligations.SkipsOnImmediate :=
  fun x nn s => ⟨decodeWord_encode (.seByte x nn), decodeWord_encode (.sneByte x nn),
    next_skipIf_beq s (s.reg x) nn, next_skipIf_bne s (s.reg x) nn⟩

/-- Settles O23: as for the immediate forms; where X is Y the test is decided. -/
theorem skipsOnRegisters : Obligations.SkipsOnRegisters := by
  intro x y n s
  have se (z : Reg) := next_skipIf_beq s (s.reg x) (s.reg z)
  have sne (z : Reg) := next_skipIf_bne s (s.reg x) (s.reg z)
  refine ⟨decodeWord_encode (.seReg x y n), decodeWord_encode (.sneReg x y n), se y, sne y, ?_, ?_⟩
  · exact (se x).trans (by rw [if_pos rfl]; rfl)
  · exact (sne x).trans (by rw [if_pos rfl]; rfl)

end Sys2Proof.Machine
end

section
/-! SUPPORT. Load, arithmetic, logic, shift and random instructions (spec/41_alu.md R110 - R122): the flags, the
differences and the shifts as numbers, and the registers where VF is written beside Vx. -/

namespace Sys2Proof.Machine

/-! ### One register written -/

/-- Settles O25: the register written is Vx. -/
theorem loadImmediate : Obligations.LoadImmediate :=
  fun x nn s => ⟨decodeWord_encode (.ldByte x nn), _, rfl, s.reg_setReg_self x nn, fun _ => s.reg_setReg_of_ne nn, rfl⟩

/-- Settles O26: the addition of bytes is modulo 256. -/
theorem addImmediateWraps : Obligations.AddImmediateWraps := by
  refine fun x nn s => ⟨decodeWord_encode (.addByte x nn), _, rfl, ?_, fun _ => s.reg_setReg_of_ne _, rfl⟩
  rw [State.reg_setReg_self, BitVec.toNat_add]

/-- Settles O27: an instruction each, with the rule for a bit of its operation. -/
theorem moveAndLogic : Obligations.MoveAndLogic := by
  refine fun x y s => ⟨⟨decodeWord_encode (.ldReg x y), _, rfl, ?_, fun _ => s.reg_setReg_of_ne _, rfl⟩,
    ⟨decodeWord_encode (.orReg x y), _, rfl, fun k => ?_, fun _ => s.reg_setReg_of_ne _, rfl⟩,
    ⟨decodeWord_encode (.andReg x y), _, rfl, fun k => ?_, fun _ => s.reg_setReg_of_ne _, rfl⟩,
    ⟨decodeWord_encode (.xorReg x y), _, rfl, fun k => ?_, fun _ => s.reg_setReg_of_ne _, rfl⟩⟩
  · rw [State.reg_setReg_self]
  · rw [State.reg_setReg_self, BitVec.getLsbD_or]
  · rw [State.reg_setReg_self, BitVec.getLsbD_and]
  · rw [State.reg_setReg_self, BitVec.getLsbD_xor]

/-- Settles O31: the mask, bit by bit and at its two ends. -/
theorem randomByteIsMasked : Obligations.RandomByteIsMasked := by
  refine fun x nn s => ⟨decodeWord_encode (.rnd x nn), _, rfl, ?_, ?_, ?_, fun _ => s.reg_setReg_of_ne _, rfl⟩
  · intro k
    rw [State.reg_setReg_self, BitVec.getLsbD_and]
  · rintro rfl
    rw [State.reg_setReg_self]
    exact BitVec.and_zero
  · rintro rfl
    rw [State.reg_setReg_self]
    exact BitVec.and_allOnes

/-! ### The flags as numbers (R21, decision D7) -/

/-- A bit as a flag is the digit of that weight. -/
theorem toNat_flag_getElem {w k : Nat} (v : BitVec w) (h : k < w) : (flag v[k]).toNat = v.toNat / 2 ^ k % 2 := by
  have hflag (c : Bool) : (flag c).toNat = c.toNat := by cases c <;> rfl
  rw [hflag, BitVec.getElem_eq_testBit_toNat, Nat.toNat_testBit]

theorem toNat_sum9 (a b : Byte) : (sum9 a b).toNat = a.toNat + b.toNat := by
  have := a.isLt; have := b.isLt
  simp only [sum9, BitVec.toNat_add, BitVec.toNat_setWidth]
  omega

theorem carryFlag_eq (a b : Byte) : carryFlag a b = if 255 < a.toNat + b.toNat then 1 else 0 := by
  have := a.isLt; have := b.isLt
  rw [← BitVec.toNat_inj, carryFlag, toNat_flag_getElem, toNat_sum9]
  split
  · change _ = 1
    omega
  · change _ = 0
    omega

theorem greaterFlag_eq (p q : Byte) : greaterFlag p q = if q.toNat < p.toNat then 1 else 0 := by
  simp only [greaterFlag, flag, BitVec.ult, decide_eq_true_eq]

theorem toNat_highBitFlag (a : Byte) : (highBitFlag a).toNat = a.toNat / 128 := by
  have := a.isLt
  rw [highBitFlag, toNat_flag_getElem]
  omega

theorem toNat_lowBitFlag (a : Byte) : (lowBitFlag a).toNat = a.toNat % 2 := by
  rw [lowBitFlag, toNat_flag_getElem, pow_zero, Nat.div_one]

/-! ### The results as numbers -/

theorem toNat_shiftLeft_one (a : Byte) : (a <<< 1).toNat = 2 * a.toNat % 256 := by
  rw [BitVec.toNat_shiftLeft, Nat.shiftLeft_eq, pow_one, Nat.mul_comm]

theorem toNat_shiftRight_one (a : Byte) : (a >>> 1).toNat = a.toNat / 2 := by
  rw [BitVec.toNat_ushiftRight, Nat.shiftRight_eq_div_pow, pow_one]

theorem toNat_sub_byte (a b : Byte) : (a - b).toNat = (a.toNat + 256 - b.toNat) % 256 := by
  have := b.isLt
  rw [BitVec.toNat_sub]
  omega

/-! ### VF written beside Vx (R10, decision D6) -/

section
variable (s : State) {x y : Reg} (b f : Byte)

theorem State.reg_setReg_setReg_of_ne {r : Reg} (hx : r ≠ x) (hy : r ≠ y) :
    ((s.setReg x b).setReg y f).reg r = s.reg r := by
  rw [State.reg_setReg_of_ne _ _ hy, State.reg_setReg_of_ne _ _ hx]

theorem State.reg_setReg_setReg_left (h : x ≠ y) : ((s.setReg x b).setReg y f).reg x = b := by
  rw [State.reg_setReg_of_ne _ _ h, State.reg_setReg_self]

/-- The operands of a difference are read after the flag is written (R117, R119). -/
theorem toNat_sub_setReg_VF (p q : Reg) : ((s.setReg VF f).reg p - (s.setReg VF f).reg q).toNat =
    ((if p = VF then f else s.reg p).toNat + 256 - (if q = VF then f else s.reg q).toNat) % 256 := by
  rw [toNat_sub_byte, State.reg_setReg, State.reg_setReg]

end

/-- Settles O28: the carry is written last. -/
theorem addRegistersSetsCarry : Obligations.AddRegistersSetsCarry := by
  refine fun x y s => ⟨_, rfl, ?_, fun hx => ?_, fun r => s.reg_setReg_setReg_of_ne _ _, rfl⟩
  · rw [State.reg_setReg_self, carryFlag_eq]
  · rw [State.reg_setReg_setReg_left _ _ _ hx, BitVec.toNat_setWidth, toNat_sum9]

/-- Settles O29: the flag is written first, and SUBN differs from SUB in the order of the operands. -/
theorem subtractionsSetStrictFlag : Obligations.SubtractionsSetStrictFlag := by
  refine fun x y s => ⟨⟨_, rfl, fun f hf => ?_, fun r hr hf => s.reg_setReg_setReg_of_ne _ _ hf hr, rfl⟩,
    ⟨_, rfl, fun f hf => ?_, fun r hr hf => s.reg_setReg_setReg_of_ne _ _ hf hr, rfl⟩⟩
  · obtain rfl := hf.trans (greaterFlag_eq _ _).symm
    refine ⟨fun hx => s.reg_setReg_setReg_left _ _ hx.symm, ?_⟩
    rw [State.reg_setReg_self, toNat_sub_setReg_VF]
  · obtain rfl := hf.trans (greaterFlag_eq _ _).symm
    refine ⟨fun hx => s.reg_setReg_setReg_left _ _ hx.symm, ?_⟩
    rw [State.reg_setReg_self, toNat_sub_setReg_VF]

/-- Settles O30: with X = 0xF the flag is what is shifted, and it is at most 1. -/
theorem shiftsByOnePosition : Obligations.ShiftsByOnePosition := by
  refine fun x y s => ⟨⟨_, rfl, fun hx => ?_, ?_, fun r hr hf => s.reg_setReg_setReg_of_ne _ _ hf hr, rfl⟩,
    ⟨_, rfl, fun hx => ?_, ?_, fun r hr hf => s.reg_setReg_setReg_of_ne _ _ hf hr, rfl⟩⟩
  · rw [State.reg_setReg_self, State.reg_setReg_of_ne s _ hx, State.reg_setReg_setReg_left _ _ _ hx.symm]
    exact ⟨toNat_shiftLeft_one _, toNat_highBitFlag _⟩
  · rintro rfl
    have := (s.reg VF).isLt
    rw [State.reg_setReg_self, State.reg_setReg_self, toNat_shiftLeft_one, toNat_highBitFlag]
    omega
  · rw [State.reg_setReg_self, State.reg_setReg_of_ne s _ hx, State.reg_setReg_setReg_left _ _ _ hx.symm]
    exact ⟨toNat_shiftRight_one _, toNat_lowBitFlag _⟩
  · rintro rfl
    rw [State.reg_setReg_self, State.reg_setReg_self, toNat_shiftRight_one, toNat_lowBitFlag]
    omega

end Sys2Proof.Machine
end

section
/-! SUPPORT. The address register and memory (spec/42_memory_index.md R130 - R136): what FX1E leaves, the glyph address
and the decimal digits as numbers, what FX33, FX55 and FX65 answer inside memory, and a block loaded back after it was
stored. -/

namespace Sys2Proof.Machine

/-! ### The address register -/

/-- Settles O32: the 12 bits of the address are not cut. -/
theorem loadAddressRegister : Obligations.LoadAddressRegister :=
  fun nnn _ => ⟨decodeWord_encode (.ldI nnn), _, rfl, toNat_absolute nnn, rfl⟩

theorem addressOverflowFlag_eq (sum : Nat) : addressOverflowFlag sum = if 4096 ≤ sum then 1 else 0 := by
  simp only [addressOverflowFlag, flag, decide_eq_true_eq]

section
variable {x : Reg} {s t : State} (h : execAddI x s = .next t)
include h

/-- The overflow is written to VF on every execution, X = 0xF included (R131). -/
theorem execAddI_VF : t.reg VF = if 4096 ≤ s.I.toNat + (s.reg x).toNat then 1 else 0 := by
  rw [← addressOverflowFlag_eq]
  cases h
  split <;> exact State.reg_setReg_self _ _ _

/-- The report is set on an overflow and otherwise left (R171, decision D16). -/
theorem execAddI_report : t.report =
    if 4096 ≤ s.I.toNat + (s.reg x).toNat then ⟨.addressOverflow, s.I.toNat + (s.reg x).toNat⟩ else s.report := by
  cases h
  split <;> rfl

/-- FX1E changes general registers, `I` and the report alone. -/
theorem execAddI_eq : t = { s with v := t.v, I := t.I, report := t.report } := by
  cases h
  split <;> rfl

end

/-- Settles O33: a completed FX1E field by field; the registers other than VF by its frame. -/
theorem addToAddressRegisterWraps : Obligations.AddToAddressRegisterWraps := by
  intro x s
  obtain ⟨t, h⟩ : ∃ t, execAddI x s = .next t := ⟨_, rfl⟩
  refine ⟨decodeWord_encode (.addI x), t, h, ?_, execAddI_VF h, fun hover => ?_, fun hfits => ?_, fun r hr => ?_,
    execAddI_eq h⟩
  · rw [execAddI_I h, BitVec.toNat_ofNat]
    omega
  · rw [execAddI_report h, if_pos hover]
  · rw [execAddI_report h, if_neg (by omega)]
  · exact (exec_frame (i := .addI x) h).reg r (beq_false_of_ne hr)

theorem toNat_glyphAddress (b : Byte) : (glyphAddress b).toNat = b.toNat % 16 * 5 := by
  have hlow : (b &&& 0x0F).toNat = b.toNat % 16 := Nat.and_two_pow_sub_one_eq_mod b.toNat 4
  rw [glyphAddress, BitVec.toNat_mul, BitVec.toNat_setWidth, hlow]
  change b.toNat % 16 % 65536 * 5 % 65536 = _
  omega

/-- Settles O34: `toNat_glyphAddress`. -/
theorem glyphAddressIsFiveTimesTheLowNibble : Obligations.GlyphAddressIsFiveTimesTheLowNibble :=
  fun x s => ⟨decodeWord_encode (.ldF x), _, rfl, toNat_glyphAddress (s.reg x), rfl⟩

/-! ### The decimal digits -/

theorem toNat_hundreds (b : Byte) : (hundreds b).toNat = b.toNat / 100 := BitVec.toNat_udiv

theorem toNat_tens (b : Byte) : (tens b).toNat = b.toNat / 10 % 10 := by
  rw [tens, BitVec.toNat_umod, BitVec.toNat_udiv]
  rfl

theorem toNat_units (b : Byte) : (units b).toNat = b.toNat % 10 := BitVec.toNat_umod

/-- FX33 inside memory writes the digits at rising addresses, hundreds first (R133). -/
theorem execLdB_of_le {x : Reg} {s : State} (h : s.I.toNat + 2 ≤ 0xFFF) :
    execLdB x s = .next (((s.writeByte s.I.toNat (hundreds (s.reg x))).writeByte (s.I.toNat + 1) (tens (s.reg x))).writeByte
      (s.I.toNat + 2) (units (s.reg x))) := withinMemory_of_le _ _ h

/-- Settles O35: each digit is read back past the writes above it. -/
theorem decimalDigitsAreStored : Obligations.DecimalDigitsAreStored := by
  intro x s hle
  have h := execLdB_of_le (x := x) hle
  refine ⟨_, h, ?_, ?_, ?_, fun a ha => execLdB_byte_of_outside h (by simp only [State.effective]; omega), rfl⟩
  · rw [State.byte_writeByte_of_ne _ _ (by omega), State.byte_writeByte_of_ne _ _ (by omega),
      State.byte_writeByte_self _ _ (by omega), toNat_hundreds]
  · rw [State.byte_writeByte_of_ne _ _ (by omega), State.byte_writeByte_self _ _ (by omega), toNat_tens]
  · rw [State.byte_writeByte_self _ _ hle, toNat_units]

/-! ### Blocks of registers -/

section
variable {x : Reg} {s : State} (h : s.effective x ≤ 0xFFF)
include h

theorem execStoreRegs_of_le : execStoreRegs x s = .next (storeBlock (x + 1) s) := withinMemory_of_le _ _ h

theorem execLoadRegs_of_le : execLoadRegs x s = .next (loadBlock (x + 1) s) := withinMemory_of_le _ _ h

end

/-- Settles O36: the bytes of a completed FX55, inside the block and outside. -/
theorem registersAreStored : Obligations.RegistersAreStored := by
  intro x s hle
  have h := execStoreRegs_of_le hle
  refine ⟨_, h, fun r => execStoreRegs_byte_of_le h, fun a ha => ?_, storeBlock_eq _ s⟩
  rw [execStoreRegs_byte h, dif_neg (by omega)]

/-- Settles O37: the registers of a completed FX65, inside the block and outside. -/
theorem registersAreLoaded : Obligations.RegistersAreLoaded := by
  intro x s hle
  refine ⟨_, execLoadRegs_of_le hle, fun r hr => ?_, fun r hr => ?_, loadBlock_eq _ s⟩
  · rw [loadBlock_reg _ s x.isLt, if_pos (Nat.lt_succ_of_le hr)]
  · rw [loadBlock_reg _ s x.isLt, if_neg (Nat.not_lt_of_le hr)]

/-- Loading a block that memory and the registers already agree on changes nothing (R135). -/
theorem loadBlock_eq_self {s : State} {k : Nat} (h : ∀ r : Reg, r.val < k → s.byte (s.effective r) = s.reg r) :
    loadBlock k s = s := by
  induction k with
  | zero => rfl
  | succ k ih =>
    rw [loadBlock, ih fun r hr => h r (by omega)]
    split
    · next hk => rw [h ⟨k, hk⟩ k.lt_succ_self, State.setReg_reg]
    · rfl

/-- Settles O38: neither `I` nor a register has moved, so the load finds at each register's address what the register
holds. -/
theorem loadAfterStoreIsIdentity : Obligations.LoadAfterStoreIsIdentity := by
  intro x s t h
  have hI : t.I = s.I := (exec_frame h).I rfl
  have hv (r : Reg) : t.reg r = s.reg r := (exec_frame h).reg r rfl
  have hle : t.effective x ≤ 0xFFF := by
    rw [State.effective, hI]
    exact (withinMemory_next h).1
  have hagree (r : Reg) (hr : r.val < x + 1) : t.byte (t.effective r) = t.reg r := by
    rw [State.effective, hI, hv]
    exact execStoreRegs_byte_of_le h (Nat.le_of_lt_succ hr)
  calc exec (.loadRegs x) t
      = .next (loadBlock (x + 1) t) := execLoadRegs_of_le hle
    _ = .next t := by rw [loadBlock_eq_self hagree]

end Sys2Proof.Machine
end

section
/-! SUPPORT. The display (spec/43_display.md R140 - R146): the composer XORs the framebuffer with a pattern of bits and
notes whether a bit met a lit pixel; one rule per way to build a pattern, then DRW from the sprite's own pattern. -/

namespace Sys2Proof.Machine

/-! ### CLS -/

/-- Settles O40: a second clear writes the same framebuffer again. -/
theorem clearTurnsEveryPixelOff : Obligations.ClearTurnsEveryPixelOff :=
  fun x s => ⟨decodeWord_encode (.cls x), s.setFb Framebuffer.allOff, rfl, Framebuffer.pixel_allOff, rfl, rfl⟩

/-! ### Composing a pattern of bits -/

/-- Composing `bits` on `c` gives `d`: every pixel is XORed with its bit, and a bit on a lit pixel is a collision
(R142). -/
structure Composes (bits : Nat → Nat → Bool) (c d : Canvas) : Prop where
  pixel : ∀ cx cy, d.fb.pixel cx cy = (c.fb.pixel cx cy ^^ bits cx cy)
  hit : d.hit = true ↔ c.hit = true ∨ ∃ cx cy, c.fb.pixel cx cy = true ∧ bits cx cy = true

namespace Composes

variable {p q r : Nat → Nat → Bool} {c d e : Canvas}

theorem of_no_bits (h : ∀ (cx : Fin 64) (cy : Fin 32), p cx cy = false) : Composes p c c where
  pixel cx cy := by rw [h, Bool.xor_false]
  hit := by simp [h]

theorem congr (h : Composes p c d) (e : ∀ (cx : Fin 64) (cy : Fin 32), q cx cy = p cx cy) : Composes q c d where
  pixel cx cy := by rw [e, h.pixel]
  hit := by simp only [e, h.hit]

/-- Two patterns that share no bit, one composed after the other, are one pattern: no pixel of the second has been
touched by the first. -/
theorem append (hp : Composes p c d) (hq : Composes q d e)
    (hdisjoint : ∀ (cx : Fin 64) (cy : Fin 32), q cx cy = true → p cx cy = false)
    (hr : ∀ (cx : Fin 64) (cy : Fin 32), r cx cy = (p cx cy || q cx cy)) : Composes r c e where
  pixel cx cy := by
    rw [hq.pixel, hp.pixel, hr, Bool.xor_assoc]
    cases hb : q cx cy with
    | false => rw [Bool.xor_false, Bool.or_false]
    | true => rw [hdisjoint cx cy hb]; rfl
  hit := by
    have hlit (cx : Fin 64) (cy : Fin 32) (hb : q cx cy = true) : d.fb.pixel cx cy = c.fb.pixel cx cy := by
      rw [hp.pixel, hdisjoint cx cy hb, Bool.xor_false]
    rw [hq.hit, hp.hit, or_assoc]
    refine or_congr_right ⟨?_, ?_⟩
    · rintro (⟨cx, cy, hl, hb⟩ | ⟨cx, cy, hl, hb⟩)
      · exact ⟨cx, cy, hl, by rw [hr, hb, Bool.true_or]⟩
      · exact ⟨cx, cy, by rw [← hlit cx cy hb, hl], by rw [hr, hb, Bool.or_true]⟩
    · rintro ⟨cx, cy, hl, hb⟩
      rw [hr, Bool.or_eq_true] at hb
      exact hb.imp (fun hb => ⟨cx, cy, hl, hb⟩) fun hb => ⟨cx, cy, by rw [hlit cx cy hb, hl], hb⟩

end Composes

/-! ### A pixel, a row, a sprite -/

/-- The one bit at (ox, oy). -/
def pointBit (ox oy cx cy : Nat) : Bool := decide (cx = ox ∧ cy = oy)

theorem composes_plot (cx : Fin 64) (cy : Fin 32) (c : Canvas) : Composes (pointBit cx cy) c (plot cx cy c) where
  pixel kx ky := by
    rw [(plot_spec cx cy c).1]
    by_cases h : kx = cx ∧ ky = cy <;> simp [pointBit, Fin.val_inj, h]
  hit := by simp [(plot_spec cx cy c).2, pointBit, Fin.val_inj]

/-- The bits of the first `k` columns of one sprite row with its left end at (ox, oy). -/
def rowBit (row : Byte) (ox oy k cx cy : Nat) : Bool :=
  decide (cy = oy ∧ ox ≤ cx ∧ cx < ox + k) && row.getLsbD (7 - (cx - ox))

theorem rowBit_succ (row : Byte) (ox oy k cx cy : Nat) :
    rowBit row ox oy (k + 1) cx cy =
      (rowBit row ox oy k cx cy || (row.getLsbD (7 - k) && pointBit (ox + k) oy cx cy)) := by
  by_cases h : cx = ox + k
  · subst h; simp [rowBit, pointBit, Bool.and_comm]
  · have : cx < ox + (k + 1) ↔ cx < ox + k := by omega
    simp [rowBit, pointBit, h, this]

/-- Columns past the right edge have no pixel to fall on (R144). -/
theorem composes_composeColumns (ox : Nat) (cy : Fin 32) (row : Byte) (k : Nat) (c : Canvas) :
    Composes (rowBit row ox cy k) c (composeColumns ox cy row k c) := by
  induction k with
  | zero => exact .of_no_bits fun kx ky => by simp [rowBit]
  | succ k ih =>
    simp only [composeColumns]
    split
    · next hx =>
      split
      · next hb =>
        refine ih.append (composes_plot ⟨ox + k, hx⟩ cy _) (fun kx ky hq => ?_) fun kx ky => ?_
        · have hkx : kx.val = ox + k := (of_decide_eq_true hq).1
          simp [rowBit, hkx]
        · rw [rowBit_succ, hb, Bool.true_and]
      · next hb => exact ih.congr fun kx ky => by simp [rowBit_succ, hb]
    · next hx =>
      refine ih.congr fun kx ky => ?_
      have hkx : kx.val ≠ ox + k := by omega
      simp [rowBit_succ, pointBit, hkx]

theorem spriteBit_succ (s : State) (ox oy k cx cy : Nat) :
    spriteBit s ox oy (k + 1) cx cy =
      (spriteBit s ox oy k cx cy || rowBit (s.byte (s.effective k)) ox (oy + k) 8 cx cy) := by
  by_cases h : cy = oy + k
  · subst h; simp [spriteBit, rowBit, State.effective]
  · have : cy < oy + (k + 1) ↔ cy < oy + k := by omega
    simp [spriteBit, rowBit, h, this]

/-- Rows past the bottom edge have no pixel to fall on (R144). -/
theorem composes_composeRows (s : State) (ox oy k : Nat) (c : Canvas) :
    Composes (spriteBit s ox oy k) c (composeRows s ox oy k c) := by
  induction k with
  | zero => exact .of_no_bits fun kx ky => by simp [spriteBit]; omega
  | succ k ih =>
    simp only [composeRows]
    split
    · next hy =>
      refine ih.append (composes_composeColumns ox ⟨oy + k, hy⟩ _ 8 _) (fun kx ky hq => ?_)
        fun kx ky => spriteBit_succ s ox oy k kx ky
      have hky : ky.val = oy + k := (of_decide_eq_true (Bool.and_eq_true_iff.mp hq).1).1
      simp [spriteBit, hky]
    · next hy =>
      refine ih.congr fun kx ky => ?_
      have hky : ky.val ≠ oy + k := by omega
      simp [spriteBit_succ, rowBit, hky]

/-! ### DRW -/

/-- The sprite a DRW draws: its bits on the grid (R141). -/
def drawnBit (x y : Reg) (n : Nibble) (s : State) (cx cy : Nat) : Bool :=
  spriteBit s (originColumn s x) (originRow s y) (drawnRows s y n) cx cy

theorem spriteBit_congr {s t : State} (hI : t.I = s.I) (hmem : t.mem = s.mem) (hparams : t.params = s.params)
    (ox oy rows cx cy : Nat) : spriteBit t ox oy rows cx cy = spriteBit s ox oy rows cx cy := by
  rw [spriteBit, spriteBit, hI, State.byte_congr hmem hparams]

/-- A first DRW leaves the sprite as it is, unless it writes its flag over an origin. -/
theorem drawnBit_of_execDrw {x y : Reg} {n : Nibble} {s t : State} (h : execDrw x y n s = .next t) (hx : x ≠ VF)
    (hy : y ≠ VF) (cx cy : Nat) : drawnBit x y n t cx cy = drawnBit x y n s cx cy := by
  have hf := exec_frame (i := .drw x y n) h
  have hregx : t.reg x = s.reg x := hf.reg x (beq_false_of_ne hx)
  have hregy : t.reg y = s.reg y := hf.reg y (beq_false_of_ne hy)
  simp only [drawnBit, drawnRows, originColumn, originRow, hregx, hregy,
    spriteBit_congr (hf.I rfl) (hf.mem rfl) hf.params]

section
variable {x y : Reg} {n : Nibble} {s t : State}

theorem execDrw_of_fits (h : drawnRows s y n = 0 ∨ s.I.toNat + drawnRows s y n - 1 ≤ 0xFFF) :
    ∃ t, execDrw x y n s = .next t := by
  refine ⟨_, withinMemory_of_le _ _ ?_⟩
  unfold highestSpriteAddress
  split
  · exact Nat.zero_le _
  · rw [State.effective]; omega

variable (h : execDrw x y n s = .next t)
include h

/-- A DRW that completes writes VF and the framebuffer alone (R21, R30). -/
theorem execDrw_eq : t = { s with v := t.v, fb := t.fb } := by rw [(withinMemory_next h).2]; rfl

/-- DRW composes its sprite on a canvas without a collision, and VF is whether there is one at the end (R141, R142).
-/
theorem execDrw_composes : ∃ hit, t.reg VF = collisionFlag hit ∧
    Composes (drawnBit x y n s) ⟨s.fb, false⟩ ⟨t.fb, hit⟩ := by
  obtain ⟨_, rfl⟩ := withinMemory_next h
  exact ⟨_, State.reg_setReg_self s VF _, composes_composeRows s _ _ _ _⟩

/-- DRW XORs the framebuffer with the sprite (R142). -/
theorem execDrw_pixel (cx : Fin 64) (cy : Fin 32) : t.fb.pixel cx cy = (s.fb.pixel cx cy ^^ drawnBit x y n s cx cy) := by
  obtain ⟨_, _, hc⟩ := execDrw_composes h
  exact hc.pixel cx cy

/-- VF tells whether a lit pixel met a bit of the sprite (R142). -/
theorem execDrw_VF :
    (t.reg VF = 1 ∧ ∃ (cx : Fin 64) (cy : Fin 32), s.fb.pixel cx cy = true ∧ drawnBit x y n s cx cy = true) ∨
      (t.reg VF = 0 ∧ ∀ (cx : Fin 64) (cy : Fin 32), s.fb.pixel cx cy = true → drawnBit x y n s cx cy = false) := by
  obtain ⟨hit, hv, hc⟩ := execDrw_composes h
  have hhit := hc.hit
  cases hit with
  | true => exact .inl ⟨hv, by simpa using hhit⟩
  | false => exact .inr ⟨hv, by simpa using hhit⟩

end

/-- Settles O41: the pixels and VF by the rules of the composer, the other registers by the frame. -/
theorem drawIsPixelwiseXor : Obligations.DrawIsPixelwiseXor := by
  rintro x y n s _ _ _ rfl rfl rfl hfits
  obtain ⟨t, h⟩ := execDrw_of_fits (x := x) hfits
  exact ⟨t, h, execDrw_pixel h, execDrw_VF h,
    fun r hr => (exec_frame (i := .drw x y n) h).reg r (beq_false_of_ne hr), execDrw_eq h⟩

/-- Settles O42: the second draw XORs the same bits away, and a bit of it meets a lit pixel exactly where the first
met a dark one. -/
theorem drawingTwiceRestores : Obligations.DrawingTwiceRestores := by
  rintro x y n s t u _ _ _ hx hy rfl rfl rfl hfirst hsecond
  have hbit := drawnBit_of_execDrw hfirst hx hy
  have hlit (cx : Fin 64) (cy : Fin 32) (hb : drawnBit x y n s cx cy = true) :
      t.fb.pixel cx cy = !s.fb.pixel cx cy := by rw [execDrw_pixel hfirst, hb, Bool.xor_true]
  refine ⟨fun cx cy => ?_, ?_⟩
  · rw [execDrw_pixel hsecond, execDrw_pixel hfirst, hbit, Bool.xor_assoc, Bool.xor_self, Bool.xor_false]
  have hVF := execDrw_VF hsecond
  simp only [hbit] at hVF
  refine hVF.imp (And.imp_right ?_) (And.imp_right ?_)
  · rintro ⟨cx, cy, hp, hb⟩
    exact ⟨cx, cy, by simpa [hlit cx cy hb] using hp, hb⟩
  · intro hmiss cx cy hdark
    by_contra hb
    rw [Bool.not_eq_false] at hb
    have hon : t.fb.pixel cx cy = true := by rw [hlit cx cy hb, hdark, Bool.not_false]
    exact Bool.false_ne_true ((hmiss cx cy hon).symm.trans hb)

end Sys2Proof.Machine
end

section
/-! SUPPORT. The keypad (spec/44_keypad.md R150 - R152): what the host's key bits make of each instruction that reads
them. -/

namespace Sys2Proof.Machine

/-! ### SKP and SKNP -/

theorem State.skipIf_not (s : State) (c : Bool) : s.skipIf (!c) = s.setPc (if c = true then s.pc else s.pc + 2) := by
  cases c with
  | true => rfl
  | false => rfl

/-- Settles O44: a key number does not fault, and SKNP's skip is SKP's with the branches exchanged. -/
theorem keySkips : Obligations.KeySkips :=
  fun _ s h => ⟨withKey_of_le _ h, (withKey_of_le _ h).trans (congrArg _ (s.skipIf_not _))⟩

/-! ### LD Vx, K -/

section
variable {s : State}

theorem State.anyKeyDown_eq_false_iff : s.anyKeyDown = false ↔ ∀ k < 16, s.input.keyDown.getLsbD k = false := by
  rw [State.anyKeyDown, bne_eq_false_iff_eq]
  constructor
  · intro hzero k _
    simp [hzero]
  · intro hup
    exact BitVec.eq_of_getLsbD_eq fun k hk => (hup k hk).trans BitVec.getLsbD_zero.symm

theorem State.anyKeyDown_eq_true_iff : s.anyKeyDown = true ↔ ∃ k < 16, s.input.keyDown.getLsbD k = true := by
  rw [← Bool.not_eq_false, State.anyKeyDown_eq_false_iff]
  push Not
  simp only [Bool.not_eq_false]

theorem execLdVxK_of_key (x : Reg) (h : s.anyKeyDown = true) :
    execLdVxK x s = .next (s.setReg x (s.input.lastKey.setWidth 8)) := by
  rw [execLdVxK, if_pos h]

theorem execLdVxK_of_no_key (x : Reg) (h : s.anyKeyDown = false) : execLdVxK x s = .next (s.setPc (s.pc - 2)) := by
  rw [execLdVxK, h, if_neg Bool.false_ne_true]

end

/-- Settles O46: a case for each answer of the keypad; the 4 bits of the last key are not cut. -/
theorem waitForKey : Obligations.WaitForKey := by
  refine fun x s => ⟨fun down => ?_, fun up => ?_⟩
  · refine ⟨_, execLdVxK_of_key x (State.anyKeyDown_eq_true_iff.mpr down), ?_, ?_, rfl⟩
    · rw [State.reg_setReg_self, BitVec.toNat_setWidth_of_le (by decide)]
    · exact fun r hr => s.reg_setReg_of_ne _ hr
  · exact execLdVxK_of_no_key x (State.anyKeyDown_eq_false_iff.mpr up)

end Sys2Proof.Machine
end

section
/-! SUPPORT. The timer registers (spec/45_timers.md R161 - R163): the instructions that move a byte between a register and
a counter. -/

namespace Sys2Proof.Machine

/-- Settles O47: FX07 is one register write, with that write's two rules; FX15 and FX18 are one counter write each. -/
theorem timerAccess : Obligations.TimerAccess := by
  refine fun x s => ⟨⟨s.setReg x s.dt, rfl, ?_, ?_, rfl⟩, ?_, ?_⟩
  · exact s.reg_setReg_self x s.dt
  · exact fun _ => s.reg_setReg_of_ne s.dt
  · exact (rfl : exec (.ldDTVx x) s = .next (s.setDT (s.reg x)))
  · exact (rfl : exec (.ldSTVx x) s = .next (s.setST (s.reg x)))

end Sys2Proof.Machine
end

section
/-! SUPPORT. What an instruction raises (spec/60_exceptions.md R170 - R181): every outcome of an instruction is a next state
or a fault of its one kind, and what a next state's report and mark can be. -/

namespace Sys2Proof.Machine

/-! ### A fault is precise -/

/-- A next state, or a fault of the kind `code` that leaves `s` but for its report and mark (R178 - R180). -/
inductive NextOrPrecise (code : ErrorCode) (s : State) : Outcome → Prop
  | next (t : State) : NextOrPrecise code s (.next t)
  | fault (f : Fault) (hcode : f.code = code) (hleft : f.left = s.markFault f.code f.value) :
      NextOrPrecise code s (.fault f)

theorem withinMemory_nextOrPrecise (highest : Nat) (s k : State) :
    NextOrPrecise .memOutOfRange s (withinMemory highest s k) := by
  unfold withinMemory
  split
  · exact .fault _ rfl rfl
  · exact .next _

theorem withKey_nextOrPrecise (x : Reg) (s k : State) : NextOrPrecise .keyIndexOutOfRange s (withKey x s k) := by
  unfold withKey
  split
  · exact .fault _ rfl rfl
  · exact .next _

theorem execCall_nextOrPrecise (nnn : Addr) (s : State) : NextOrPrecise .stackOverflow s (execCall nnn s) := by
  unfold execCall
  split
  · exact .fault _ rfl rfl
  · exact .next _

theorem stackUnderflow_nextOrPrecise (s : State) : NextOrPrecise .stackUnderflow s (stackUnderflow s) := by
  unfold stackUnderflow
  split
  · exact .next _
  · exact .fault _ rfl rfl

theorem execRet_nextOrPrecise (s : State) : NextOrPrecise .stackUnderflow s (execRet s) := by
  unfold execRet
  split
  · exact stackUnderflow_nextOrPrecise s
  · exact .next _

/-- The table of R179: an instruction that can fault does so through the shared operation of its row, every other gives a
next state. -/
theorem exec_nextOrPrecise (i : Instr) (s : State) : NextOrPrecise (mayRaise i) s (exec i s) := by
  cases i with
  | ret => exact execRet_nextOrPrecise s
  | call nnn => exact execCall_nextOrPrecise nnn s
  | drw => exact withinMemory_nextOrPrecise _ s _
  | ldB => exact withinMemory_nextOrPrecise _ s _
  | storeRegs => exact withinMemory_nextOrPrecise _ s _
  | loadRegs => exact withinMemory_nextOrPrecise _ s _
  | skp x => exact withKey_nextOrPrecise x s _
  | sknp x => exact withKey_nextOrPrecise x s _
  | _ => exact .next _

theorem exec_fault {i : Instr} {s : State} {f : Fault} (h : exec i s = .fault f) :
    f.code = mayRaise i ∧ f.left = s.markFault f.code f.value := by
  have hout := exec_nextOrPrecise i s
  rw [h] at hout
  cases hout with
  | fault _ hcode hleft => exact ⟨hcode, hleft⟩

theorem exec_ne_refused (i : Instr) (s : State) (r : Refusal) : exec i s ≠ .refused r := by
  intro h
  have hout := exec_nextOrPrecise i s
  rw [h] at hout
  cases hout

/-! ### The report and the mark of a next state -/

/-- Report and mark stay, but for the status of FX1E (R171) and a RET the host goes on after (R170, R181). -/
theorem exec_report_cases {i : Instr} {s t : State} (h : exec i s = .next t) :
    (t.report = s.report ∧ t.faulted = s.faulted) ∨
      (∃ x, i = .addI x ∧ t.report = ⟨.addressOverflow, s.I.toNat + (s.reg x).toNat⟩ ∧ t.faulted = s.faulted) ∨
      (∃ x, i = .ret x ∧ s.stack = [] ∧ s.params.continueAfterUnderflow = true ∧
        t = s.markFault .stackUnderflow s.fetchedFrom) := by
  cases i with
  | addI x =>
    have hmark : t.faulted = s.faulted := by rw [execAddI_eq h]
    have hreport := execAddI_report h
    split at hreport
    · exact .inr (.inl ⟨x, rfl, hreport, hmark⟩)
    · exact .inl ⟨hreport, hmark⟩
  | ret x =>
    cases hstack : s.stack with
    | nil => exact .inr (.inr ⟨x, rfl, rfl, stackUnderflow_next ((execRet_of_nil hstack).symm.trans h)⟩)
    | cons => cases (execRet_of_cons hstack).symm.trans h; exact .inl ⟨rfl, rfl⟩
  | call => obtain ⟨-, rfl⟩ := execCall_next h; exact .inl ⟨rfl, rfl⟩
  | drw => obtain ⟨-, rfl⟩ := withinMemory_next h; exact .inl ⟨rfl, rfl⟩
  | ldB => obtain ⟨-, rfl⟩ := withinMemory_next h; exact .inl ⟨rfl, rfl⟩
  | storeRegs => obtain ⟨-, rfl⟩ := withinMemory_next h; rw [storeBlock_eq]; exact .inl ⟨rfl, rfl⟩
  | loadRegs => obtain ⟨-, rfl⟩ := withinMemory_next h; rw [loadBlock_eq]; exact .inl ⟨rfl, rfl⟩
  | skp => obtain ⟨-, rfl⟩ := withKey_next h; exact .inl ⟨rfl, rfl⟩
  | sknp => obtain ⟨-, rfl⟩ := withKey_next h; exact .inl ⟨rfl, rfl⟩
  | ldVxK => cases h; split <;> exact .inl ⟨rfl, rfl⟩
  | _ => cases h; exact .inl ⟨rfl, rfl⟩

/-- Only a StackUnderflow the host goes on after sets the mark in a next state (R181). -/
theorem exec_faulted_cases {i : Instr} {s t : State} (h : exec i s = .next t) :
    t.faulted = s.faulted ∨
      (s.params.continueAfterUnderflow = true ∧ t = s.markFault .stackUnderflow s.fetchedFrom) := by
  rcases exec_report_cases h with ⟨-, hmark⟩ | ⟨-, -, -, hmark⟩ | ⟨-, -, -, hunderflow⟩
  · exact .inl hmark
  · exact .inl hmark
  · exact .inr hunderflow

/-- Settles O58: faults and refusals by `exec_nextOrPrecise`, next states by `exec_report_cases`. -/
theorem reportsAreExact : Obligations.ReportsAreExact := by
  refine fun i s => ⟨fun _ => exec_fault, fun t h => ?_, exec_ne_refused i s⟩
  rcases exec_report_cases h with ⟨hreport, -⟩ | hadd | ⟨x, hi, hstack, -, rfl⟩
  · exact .inl hreport
  · exact .inr (.inl hadd)
  · exact .inr (.inr ⟨x, hi, hstack, rfl, rfl⟩)

/-- Settles O57: poll, advance and the end of the iteration leave mark and parameters alone, so the step's change is the
instruction's. -/
theorem faultMarkIsSticky : Obligations.FaultMarkIsSticky := by
  intro s t h
  obtain ⟨i, u, -, -, hu, rfl⟩ := step_next h
  refine ⟨by simpa using (exec_frame hu).params, ?_⟩
  rw [State.accrue_faulted, State.accrue_report]
  rcases exec_faulted_cases hu with hmark | ⟨hcont, rfl⟩
  · rw [hmark, State.advance_faulted, State.poll_faulted]
    exact ⟨id, fun hoff hon => absurd (hoff.symm.trans hon) Bool.false_ne_true⟩
  · exact ⟨fun _ => rfl, fun _ _ => ⟨rfl, by simpa using hcont⟩⟩

/-! ### The faults of data accesses and key numbers -/

/-- A data access above 0xFFF leaves the state as it was but for report and mark (R173, R180). -/
theorem withinMemory_faults {highest : Nat} (s k : State) (h : 0xFFF < highest) :
    ∃ left, withinMemory highest s k = .fault (.memOutOfRange highest left) ∧ s.SameButPc left ∧ left.pc = s.pc ∧
      left.report = ⟨.memOutOfRange, highest⟩ ∧ left.faulted = true :=
  ⟨_, withinMemory_of_lt s k h, s.sameButPc_markFault _ _, rfl, rfl, rfl⟩

/-- The last row a DRW draws is the highest it reads (R141). -/
theorem highestSpriteAddress_of_pos {s : State} {y : Reg} {n : Nibble} (h : 0 < drawnRows s y n) :
    highestSpriteAddress s y n = s.I.toNat + drawnRows s y n - 1 := by
  rw [highestSpriteAddress, if_neg (by omega), State.effective, Nat.add_sub_assoc h]

/-- Settles O39: each of the four forms is `withinMemory` of its highest address. -/
theorem accessAboveMemoryFaults : Obligations.AccessAboveMemoryFaults := by
  rintro s i highest hover (⟨x, rfl, rfl⟩ | ⟨x, rfl, rfl⟩ | ⟨x, rfl, rfl⟩ | ⟨x, y, n, rows, rfl, hrows, hpos, rfl⟩)
  · exact withinMemory_faults s _ hover
  · exact withinMemory_faults s _ hover
  · exact withinMemory_faults s _ hover
  · obtain rfl : rows = drawnRows s y n := hrows
    rw [← highestSpriteAddress_of_pos hpos] at hover ⊢
    exact withinMemory_faults s _ hover

/-- Settles O45: `withKey_of_lt` for both forms, which leave the same state. -/
theorem keyNumberAboveFifteenFaults : Obligations.KeyNumberAboveFifteenFaults :=
  fun _ s h => ⟨_, withKey_of_lt _ h, withKey_of_lt _ h, s.sameButPc_markFault _ _, rfl, rfl, rfl⟩

end Sys2Proof.Machine
end

section
/-! SUPPORT. The timer unit and the divider (spec/60_exceptions.md R182 - R187), with the counters and the accrued time as
numbers. -/

namespace Sys2Proof.Machine

/-! ### The tick -/

/-- A counter loses the tick that fires, and stays at 0 (R183). -/
theorem toNat_countDown (fires : Bool) (c : Byte) : (countDown fires c).toNat = c.toNat - fires.toNat := by
  by_cases hzero : c = 0
  · rw [hzero, countDown, if_pos rfl]
    exact (Nat.zero_sub _).symm
  · rw [countDown, if_neg hzero]
    cases fires with
    | false => rfl
    | true =>
      have hpos : c.toNat ≠ 0 := fun e => hzero (BitVec.eq_of_toNat_eq e)
      rw [if_pos rfl, Bool.toNat_true]
      bv_omega

theorem State.toNat_tick_dt (s : State) : s.tick.dt.toNat = s.dt.toNat - 1 := toNat_countDown true s.dt

theorem State.toNat_tick_st (s : State) : s.tick.st.toNat = s.st.toNat - 1 := toNat_countDown true s.st

theorem State.tick_eq (s : State) : s.tick = { s with dt := s.tick.dt, st := s.tick.st } := rfl

/-- Settles O48: truncated subtraction holds both clauses of a counter. -/
theorem tickDecrementsNonzeroCounters : Obligations.TickDecrementsNonzeroCounters := by
  intro s
  rw [s.toNat_tick_dt, s.toNat_tick_st]
  exact ⟨fun _ => rfl, fun h => by rw [h], fun _ => rfl, fun h => by rw [h], s.tick_eq⟩

/-- Settles O49, by induction on the number of ticks: the last tick takes one more off each counter. -/
theorem ticksCountDownToZero : Obligations.TicksCountDownToZero := by
  intro n s
  induction n with
  | zero => exact ⟨rfl, rfl, rfl⟩
  | succ n ih =>
    obtain ⟨hdt, hst, hframe⟩ := ih
    rw [Function.iterate_succ_apply', State.toNat_tick_dt, State.toNat_tick_st, hdt, hst]
    exact ⟨Nat.sub_sub _ _ _, Nat.sub_sub _ _ _, by rw [State.tick_eq, hframe]⟩

/-! ### The divider -/

/-- A tick takes one period off the accrued time and the remainder is kept (R185, decision D14). -/
theorem State.accrue_accounts (s : State) :
    s.tickFires.toNat * tickPeriod + s.accrue.acc = s.acc + s.input.elapsed := by
  rw [State.accrue_acc]
  cases hfires : s.tickFires with
  | false => simp
  | true =>
    have : tickPeriod < s.acc + s.input.elapsed := of_decide_eq_true hfires
    rw [if_pos rfl, Bool.toNat_true]
    omega

/-- No more than one period is left after an iteration no longer than a period (R186). -/
theorem State.accrue_acc_le {s : State} (hacc : s.acc ≤ tickPeriod) (helapsed : s.input.elapsed ≤ tickPeriod) :
    s.accrue.acc ≤ tickPeriod := by
  rw [State.accrue_acc]
  split
  · omega
  · next hquiet =>
    have : ¬tickPeriod < s.acc + s.input.elapsed := fun h => hquiet (decide_eq_true h)
    omega

/-- Settles O50, by induction on the iterations: the first fires once or not at all, the others account for the rest. -/
theorem dividerAccountsForTheTime : Obligations.DividerAccountsForTheTime := by
  intro hs
  induction hs with
  | nil => exact fun s => ⟨⟨0, le_rfl, rfl, rfl, Nat.zero_add _⟩, fun hacc _ => hacc⟩
  | cons h hs ih =>
    intro s
    obtain ⟨⟨k, hk, hdt, hst, htime⟩, hbound⟩ := ih (s.setInput h).accrue
    have hfirst := (s.setInput h).accrue_accounts
    refine ⟨⟨(s.setInput h).tickFires.toNat + k, ?_, ?_, ?_, ?_⟩, fun hacc hshort => ?_⟩
    · have := Bool.toNat_le (s.setInput h).tickFires
      rw [List.length_cons]
      omega
    · rw [List.foldl_cons, hdt, State.accrue_dt, toNat_countDown, State.setInput_dt, Nat.sub_sub]
    · rw [List.foldl_cons, hst, State.accrue_st, toNat_countDown, State.setInput_st, Nat.sub_sub]
    · rw [State.setInput_acc, State.setInput_input] at hfirst
      rw [List.foldl_cons, List.map_cons, List.sum_cons, Nat.add_mul]
      omega
    · obtain ⟨hh, hrest⟩ := List.forall_mem_cons.mp hshort
      exact hbound (State.accrue_acc_le hacc hh) hrest

end Sys2Proof.Machine
end

section
/-! SUPPORT. The render port (spec/60_exceptions.md R188). -/

namespace Sys2Proof.Machine

/-- Settles O43: the quotient and the remainder of the bit number by 64 are the pixel's row and column. -/
theorem snapshotShowsEveryPixel : Obligations.SnapshotShowsEveryPixel := by
  intro s cx cy
  have hk : cy.val * 64 + cx.val < 2048 := by omega
  have hcol : (cy.val * 64 + cx.val) % 64 = cx.val := by omega
  have hrow : (cy.val * 64 + cx.val) / 64 = cy.val := by omega
  rw [State.snapshot, BitVec.getLsbD_ofFnLE, dif_pos hk]
  simp only [hcol, hrow]

end Sys2Proof.Machine
end

section
/-! SUPPORT. The program load and the launch (spec/60_exceptions.md R172, spec/70_reset_and_hazards.md R202, R203,
R218). -/

namespace Sys2Proof.Machine

/-! ### The program load -/

section
variable {p : List Byte} {s : State}

theorem loadProgram_of_lt (h : progMax < p.length) : loadProgram p s = .refused (.programTooLarge p.length) := if_pos h

section
variable (h : p.length ≤ progMax)
include h

theorem loadProgram_of_le : loadProgram p s = .next (loadBytes progBase p s) := if_neg (Nat.not_lt.mpr h)

/-- A program that fits ends inside memory: 0x200 + 3584 = 0x1000. -/
theorem progBase_add_length_le : progBase + p.length ≤ 0x1000 := Nat.add_le_add_left h progBase

theorem loadBytes_byte_of_program {k : Nat} (hk : k < p.length) :
    (loadBytes progBase p s).byte (progBase + k) = p[k] := by
  rw [loadBytes_byte p progBase s (progBase_add_length_le h), dif_pos (by omega)]
  simp only [Nat.add_sub_cancel_left]

theorem loadBytes_byte_of_outside {a : Nat} (ha : a < progBase ∨ progBase + p.length ≤ a) :
    (loadBytes progBase p s).byte a = s.byte a := by
  rw [loadBytes_byte p progBase s (progBase_add_length_le h), dif_neg (by omega)]

/-- A program that fits is copied verbatim, and nothing else changes (R202). -/
theorem loadProgram_copies (s : State) :
    ∃ t, loadProgram p s = .next t ∧ t = { s with mem := t.mem } ∧
      (∀ (k : Nat) (hk : k < p.length), t.byte (progBase + k) = p[k]) ∧
      ∀ a, a < progBase ∨ progBase + p.length ≤ a → t.byte a = s.byte a :=
  ⟨_, loadProgram_of_le h, loadBytes_eq progBase p s, fun _ => loadBytes_byte_of_program h,
    fun _ => loadBytes_byte_of_outside h⟩

/-! ### The launch -/

/-- Reset and load leave every launch premise (R203, R218): the glyphs lie below the program, and the premises about
other fields than memory are about reset. -/
theorem launch_leaves_premises (prm : Params) :
    ∃ t, launch prm p = .next t ∧ t.params = prm ∧
      Launch.premises p prm.glyphRom Config.memInit prm.stackDepth t := by
  obtain ⟨t, hload, hframe, hprogram, hother⟩ := loadProgram_copies h (State.resetWith prm)
  have hparams : t.params = prm := congrArg State.params hframe
  have hregs : ∀ r, t.reg r = 0 := fun r => (congrArg (State.reg · r) hframe).trans (State.resetWith_reg prm r)
  have hglyphs : Launch.glyphs prm.glyphRom t := fun k =>
    (hother k (.inl (k.isLt.trans (by decide)))).trans (State.resetWith_byte_of_lt prm k.isLt)
  have hpixels : ∀ cx cy, t.fb.pixel cx cy = false := fun cx cy => by
    rw [hframe]
    exact Framebuffer.pixel_allOff cx cy
  have hchosen : Launch.resetChosen t :=
    ⟨congrArg State.I hframe, congrArg State.dt hframe, congrArg State.st hframe, hpixels, congrArg State.acc hframe⟩
  have hmem : Launch.memInit p Config.memInit t := fun a hglyph _ hout =>
    (hother a hout).trans (State.resetWith_byte_of_le prm hglyph)
  exact ⟨t, hload, hparams, ⟨⟨hregs, congrArg State.pc hframe, hglyphs⟩, congrArg State.stack hframe, hchosen⟩,
    ⟨h, hprogram⟩, hmem, ⟨congrArg State.faulted hframe, congrArg State.report hframe⟩,
    congrArg Params.stackDepth hparams⟩

end
end

/-- Settles O15: the load and the launch, each for a program that fits and for a longer one. -/
theorem loadCopiesTheProgram : Obligations.LoadCopiesTheProgram :=
  ⟨fun _ s h => loadProgram_copies h s, fun _ _ => loadProgram_of_lt,
    fun prm _ => ⟨fun h => launch_leaves_premises h prm, loadProgram_of_lt⟩⟩

end Sys2Proof.Machine
end

section
/-! SUPPORT. The end of a run (spec/70_reset_and_hazards.md R209, decision D20): a final state is a jump to itself. -/

namespace Sys2Proof.Machine

theorem State.final_iff (s : State) :
    s.final = true ↔ s.faulted = false ∧ s.pc.toNat ≤ 0xFFE ∧
      decodeWord (s.wordAt s.pc.toNat) = some (.jp (s.pc.setWidth 12)) := by
  simp [State.final, and_assoc]

theorem State.wordAt_congr {s t : State} (hmem : t.mem = s.mem) (hparams : t.params = s.params) (a : Nat) :
    t.wordAt a = s.wordAt a := by
  rw [State.wordAt, State.wordAt, State.byte_congr hmem hparams, State.byte_congr hmem hparams]

/-- Whether a state is final depends on the fault mark, pc, the memory and the parameters alone. -/
theorem State.final_congr {s t : State} (hfaulted : t.faulted = s.faulted) (hpc : t.pc = s.pc) (hmem : t.mem = s.mem)
    (hparams : t.params = s.params) : t.final = s.final := by
  rw [State.final, State.final, hfaulted, hpc, State.wordAt_congr hmem hparams]

/-- An address inside memory survives the 12 bits of a jump. -/
theorem absolute_setWidth {w : Word} (h : w.toNat ≤ 0xFFE) : absolute (w.setWidth 12) = w := by
  rw [← BitVec.toNat_inj, toNat_absolute, BitVec.toNat_setWidth]
  omega

/-- A step of a final state jumps to where it is: the poll and the end of the iteration are all that is left. -/
theorem step_of_final {s : State} (h : s.final = true) : step s = .next (s.poll.setPc s.pc).accrue := by
  obtain ⟨-, hpc, hword⟩ := s.final_iff.mp h
  have hjump : exec (.jp (s.pc.setWidth 12)) (s.poll.setPc (s.pc + 2)) = .next (s.poll.setPc s.pc) :=
    congrArg (fun w => Host.Outcome.next (s.poll.setPc w)) (absolute_setWidth hpc)
  rw [step_of_some hpc hword, hjump, finish]

theorem toNat_countDown_le (fires : Bool) (c : Byte) : (countDown fires c).toNat ≤ c.toNat := by
  rw [toNat_countDown]
  exact Nat.sub_le _ _

/-- Settles O60: the poll, the jump and the end of the iteration move nothing but the counters. -/
theorem finalStateStays : Obligations.FinalStateStays := by
  intro s h
  have hstays : (s.poll.setPc s.pc).accrue.final = s.final := State.final_congr (by simp) (by simp) (by simp) (by simp)
  refine ⟨_, step_of_final h, hstays.trans h, ?_⟩
  simp [toNat_countDown_le]

end Sys2Proof.Machine
end
